-- ==== Sys2Proof/Word.lean ====
section
/-! DEFINITION. The word types of the TrailCurrent MPPT CAN frame encoder (00_scope.md R4, R5; 30_encoding.md R45). -/

namespace Sys2Proof

/-- A byte, 8 bits (R5). -/
abbrev Byte := BitVec 8

/-- A command operand or a wide state field: `XLEN` bits with `XLEN = 32` (R4, decision D2; log entry 13). -/
abbrev Word := BitVec 32

/-- A command word, `3 + XLEN` bits (R45). -/
abbrev CmdWord := BitVec 35

/-- A string in the sense of 42_line_frontend.md: a finite sequence of bytes. -/
abbrev Bytes := List Byte

end Sys2Proof
end

