-- ==== Sys2Proof/Config.lean ====
section
/-! DEFINITION. What is fixed for the machine: the named constants of 00_scope.md R4 (decision D26: one place to change
an unaudited literal), the parameters the spec leaves OPEN, and the free values. A free value is an opaque constant: no
proof can see what it is, so a theorem holds for every value of it. -/

namespace Sys2Proof.Config

/-- `ID_A`: identifier of Frame A (R4, R49). -/
abbrev idA : BitVec 11 := 0x02C#11

/-- `ID_B`: identifier of Frame B (R4, R49). -/
abbrev idB : BitVec 11 := 0x02D#11

/-- `DLC_A`: number of data bytes of Frame A (R4, R49). -/
abbrev dlcA : BitVec 4 := 7#4

/-- `DLC_B`: number of data bytes of Frame B (R4, R49). -/
abbrev dlcB : BitVec 4 := 3#4

/-- `SCALE`: raw units per whole unit (R4). -/
abbrev scale : Nat := 1000

/-- `FRAC_DIGITS`: decimal digits kept in a fractional part (R4). -/
abbrev fracDigits : Nat := 2

/-- Raw units per hundredth: `SCALE / 10 ^ FRAC_DIGITS`, the divisor 10 of R66 and R68. -/
abbrev fracUnit : Nat := scale / 10 ^ fracDigits

/-- `PERIOD` of the period gate, in milliseconds (R4, R135, R169). -/
abbrev period : Nat := 33

/-- `TX_TIMEOUT`: bound on one transmit attempt, in milliseconds (R4, R140, R170). -/
abbrev txTimeout : Nat := 10

/-- `DIAG_EN`: whether the diagnostic channel exists (R4, R144; OPEN, decision D13, log entry 9). -/
opaque diagEn : Bool

/-- `TOINT_MIXED`: what a mixed token converts to (R108; OPEN, decision D21, log entry 14). -/
opaque toIntMixed : Bytes → Word

/-- `CLOCKW`: width of the monotonic clock (R4, R139; OPEN, decision D24, log entry 4). -/
opaque clockW : Nat

/-- What `now - anchor` gives when `now` reads below `anchor`: the counter has wrapped (R139; free, log entry 4).
The arguments are `now` and `anchor`. -/
opaque wrapElapsed : Nat → Nat → Nat

/-- The clock reading after the restart that draw `n` belongs to (R137, R139; free, log entry 3). -/
opaque clockAtReset : Nat → Nat

/-- `LINE_MAX`: longest line the line buffer holds (R4, R102; OPEN, decision D25, log entry 6). -/
opaque lineMax : Nat

/-- The lines the line buffer hands on in place of one that is longer than `LINE_MAX`, in the firing that draw `n`
belongs to (R102, N13; free, log entry 6). -/
opaque overlongLine : Nat → Bytes → List Bytes

/-- What the diagnostic channel shows for a diagnostic-only key with its value (R110, N11; free, log entry 9). -/
opaque displayText : Bytes → Bytes → Bytes

/-- Whether the Transmit Driver accepts the frame of draw `n` if it is given the time (R90, R142; free, log entry 1). -/
opaque txAccept : Nat → Bool

/-- How many milliseconds the Transmit Driver needs for the attempt of draw `n` (R140; free, log entry 8). -/
opaque txDelay : Nat → Nat

/-- How many milliseconds pass in the poll of draw `n` (R135, R145; free, log entry 7). -/
opaque pollTime : Nat → Nat

/-- The bytes the serial source has delivered by the poll of draw `n` (R143; free, log entry 7). -/
opaque serialIn : Nat → Bytes

end Sys2Proof.Config
end

