-- ==== Sys2Proof/Syntax.lean ====
section
/-! DEFINITION. The commands: one constructor per row of spec/opcode_table.json (30_encoding.md R56). -/

namespace Sys2Proof

/-- A command with the operand field `val` of its word. NOP, ENCODE and RSV7 ignore `val` but carry it, so that no bit of
a command word is lost (R54, R62). -/
inductive Instr where
  | nop (val : Word)      -- NOP, opcode 0 (R75)
  | updV (val : Word)     -- UPD_V, opcode 1: battery voltage, raw millivolts (R70)
  | updVpv (val : Word)   -- UPD_VPV, opcode 2: panel voltage, raw millivolts (R71)
  | updPpv (val : Word)   -- UPD_PPV, opcode 3: panel power, raw watts (R72)
  | updI (val : Word)     -- UPD_I, opcode 4: panel current, raw milliamps (R73)
  | updCs (val : Word)    -- UPD_CS, opcode 5: charge status code (R74)
  | encode (val : Word)   -- ENCODE, opcode 6 (R85)
  | rsv7 (val : Word)     -- RSV7, opcode 7, reserved, behaves as NOP (R76)
  deriving DecidableEq, Repr

end Sys2Proof
end

