-- ==== Sys2Proof/WellFormed.lean ====
section
/-! DEFINITION. Which terms stand for commands the hardware has. Every operand value is legal for every command
(30_encoding.md R58), so a term of `Instr` has nothing to check; the one check there is stands where an operand is
still written as an integer (R47, R60). -/

namespace Sys2Proof

/-- The integers an operand can be: `-2^(XLEN-1)` to `2^(XLEN-1) - 1` (R47, R60, R108). -/
def operandInRange (z : Int) : Bool := decide (-2147483648 ≤ z) && decide (z ≤ 2147483647)

/-- Every command with every operand is well formed: "Every value of `val` is legal for every update command" (R58), and
NOP, ENCODE and RSV7 ignore it (R54). -/
def Instr.wellFormed : Instr → Bool
  | .nop _ => true
  | .updV _ => true
  | .updVpv _ => true
  | .updPpv _ => true
  | .updI _ => true
  | .updCs _ => true
  | .encode _ => true
  | .rsv7 _ => true

end Sys2Proof
end

