-- ==== Sys2Proof/Decode.lean ====
section
/-! DEFINITION. The command decoder, total on every 35-bit word (30_encoding.md R45, R46, R56, R58), and the encoder. -/

namespace Sys2Proof

/-- Field `op`, bits 34 to 32 of a command word (R45). -/
def opField (w : CmdWord) : BitVec 3 := w.extractLsb' 32 3

/-- Field `val`, bits 31 to 0 of a command word (R45). -/
def valField (w : CmdWord) : Word := w.extractLsb' 0 32

/-- The opcode map (R56). The last row is opcode 7, the only 3-bit number left. -/
def instrOf (op : BitVec 3) (val : Word) : Instr :=
  match op.toNat with
  | 0 => .nop val
  | 1 => .updV val
  | 2 => .updVpv val
  | 3 => .updPpv val
  | 4 => .updI val
  | 5 => .updCs val
  | 6 => .encode val
  | _ => .rsv7 val

/-- The decoder: it looks at `op` and nothing else to select the command (R46), and no word is illegal (R58). -/
def decode (w : CmdWord) : Instr := instrOf (opField w) (valField w)

/-- The opcode of a command (R56). -/
def Instr.op : Instr → BitVec 3
  | .nop _ => 0#3
  | .updV _ => 1#3
  | .updVpv _ => 2#3
  | .updPpv _ => 3#3
  | .updI _ => 4#3
  | .updCs _ => 5#3
  | .encode _ => 6#3
  | .rsv7 _ => 7#3

/-- The operand field of a command (R45). -/
def Instr.val : Instr → Word
  | .nop val => val
  | .updV val => val
  | .updVpv val => val
  | .updPpv val => val
  | .updI val => val
  | .updCs val => val
  | .encode val => val
  | .rsv7 val => val

/-- The encoder: `op` above `val` (R45). -/
def encode (i : Instr) : CmdWord := i.op ++ i.val

/-- Why a number is not a command word. -/
inductive DecodeError where
  | tooWide   -- the number has a bit above bit 34; there is no command word with one (R45, R59)
  deriving DecidableEq, Repr

/-- The decoder on numbers: a number below `2^35` is a command word, any other is rejected by name (R45, R59). -/
def decodeNat (w : Nat) : Except DecodeError Instr :=
  if w < 2 ^ 35 then .ok (decode (BitVec.ofNat 35 w)) else .error .tooWide

/-- The decoder on a word numbered as the opcode table numbers it: one command is one word, bit 0 its least significant
bit (R45), and every bit above `nbits` is 0 (log entry 11). -/
def decodeTableWord (nbits w : Nat) : Option Instr :=
  match decodeNat (w % 2 ^ nbits) with
  | .ok i => some i
  | .error _ => none

end Sys2Proof
end

