-- ==== Sys2Proof/Machine/State.lean ====
section
/-! DEFINITION. The state of the machine as plain data, the reasons a step could stop, and the state after reset. -/

namespace Sys2Proof.Machine

/-- The Telemetry State: the ten registers, in the order of the table of 10_state.md R10. -/
structure Telemetry where
  pvWhole : Word       -- x0 pv_whole: panel voltage, whole volts, signed (R11)
  pvFrac : Word        -- x1 pv_frac: panel voltage, hundredths, signed (R11)
  bvWhole : Word       -- x2 bv_whole: battery voltage, whole volts, signed (R12)
  bvFrac : Word        -- x3 bv_frac: battery voltage, hundredths, signed (R12)
  ppMsb : Byte         -- x4 pp_msb: panel power, high byte (R13)
  ppLsb : Byte         -- x5 pp_lsb: panel power, low byte (R13)
  pcSign : BitVec 1    -- x6 pc_sign: panel current, the sign flag (R14, R20)
  pcWhole : Word       -- x7 pc_whole: panel current, whole amps, unsigned (R14)
  pcFrac : Word        -- x8 pc_frac: panel current, hundredths, unsigned (R14)
  cs : Word            -- x9 cs: charge status (R15)
  deriving DecidableEq, Repr

/-- The sequencing state of one ENCODE at the port level (R24). -/
inductive Phase where
  | idle    -- IDLE: a command may be taken
  | sendA   -- SEND_A: Frame A is at the frame port, its answer not yet in
  | sendB   -- SEND_B: Frame B is at the frame port, its answer not yet in
  deriving DecidableEq, Repr

/-- Which of the two frames (R50, R51). -/
inductive FrameTag where
  | a
  | b
  deriving DecidableEq, Repr

/-- A frame descriptor as handed to the Transmit Driver (30_encoding.md R49). The payload has exactly `dlc` bytes, byte 0
first; no byte beyond them has a value (`Frame.wf`, Safety.lean). -/
structure Frame where
  id : BitVec 11
  ide : BitVec 1
  rtr : BitVec 1
  dlc : BitVec 4
  data : Bytes
  deriving DecidableEq, Repr

/-- One transmit attempt: the frame handed over and the driver's answer `ok` (R90). -/
structure Attempt where
  frame : Frame
  ok : Bool
  deriving DecidableEq, Repr

/-- An event on the diagnostic channel (R144; content by decision D13, log entry 9). -/
inductive DiagEvent where
  | txResult (tag : FrameTag) (ok : Bool)                      -- the result of one transmit attempt (R91)
  | rawLine (line : Bytes)                                     -- echo of a raw input line (R113)
  | decoded (key value : Bytes) (cmd : Sys2Proof.Instr)        -- decode result of a recognised key (R113)
  | display (key shown : Bytes)                                -- display of a diagnostic-only key (R110)
  deriving DecidableEq, Repr

/-- Where the control loop stands (60_exceptions.md R131, R136). -/
inductive Loop where
  | polling   -- between firings: it tests whether the period gate is Due
  | firing    -- inside a firing: the drained commands and the ENCODE are being executed
  deriving DecidableEq, Repr

/-- The machine: the block (`regs`, `phase`), its input port (`rst`, `cmds`), its outputs (`out`, `diag`), and the
environment that issues commands (`rx`, `clock`, `anchor`, `loop`). `draws` is the model's own field (log entry 1). -/
structure State where
  regs : Telemetry       -- the ten registers (R10)
  phase : Phase          -- the port-level sequencing state (R24)
  rst : Bool             -- the reset input: asserted or not (R155)
  cmds : List CmdWord    -- command words presented and not yet taken, oldest first (R38, R48, R167)
  out : List Attempt     -- the output trace, oldest first (R7, R8)
  diag : List DiagEvent  -- the diagnostic trace, oldest first (R7, R144)
  rx : Bytes             -- the serial line buffer: bytes received and not yet drained (R102)
  clock : Nat            -- the reading of the monotonic clock, milliseconds (R139)
  anchor : Nat           -- the clock reading at the end of the last firing (R135)
  loop : Loop            -- where the control loop stands (R131, R136)
  draws : Nat            -- how many free values have been drawn (the model's own, log entry 1)
  deriving DecidableEq, Repr

/-- The faults of the machine: there are none, "No command faults, traps, hangs, is refused or leaves the block in an
error state; every command word completes" (60_exceptions.md R125). Nothing raises a fault. -/
inductive Fault where
  deriving DecidableEq, Repr

/-- The refusals of the model. -/
inductive Refusal where
  /-- Raised only by an arm of `exec` for an instruction that has no meaning yet. No arm raises it: every instruction of
  the opcode table has its meaning (R125). Safe. -/
  | notModelled (mnemonic : String)
  deriving DecidableEq, Repr

/-- The ten registers after reset: all zero (10_state.md R26, R27). -/
def Telemetry.zero : Telemetry where
  pvWhole := 0#32
  pvFrac := 0#32
  bvWhole := 0#32
  bvFrac := 0#32
  ppMsb := 0#8
  ppLsb := 0#8
  pcSign := 0#1
  pcWhole := 0#32
  pcFrac := 0#32
  cs := 0#32

/-- The machine right after reset: all ten registers zero, `phase = IDLE` (R26, R155), no command presented (R158),
nothing received or sent (R156), the gate waiting (R137). DESIGN CHOICE (unsafe): the clock reads 0 (log entry 3); the
draw counter is 0 (log entry 1, safe). -/
def State.reset : State where
  regs := Telemetry.zero
  phase := .idle
  rst := false
  cmds := []
  out := []
  diag := []
  rx := []
  clock := 0
  anchor := 0
  loop := .polling
  draws := 0

end Sys2Proof.Machine
end

