-- ==== Sys2Proof/Machine/Operands.lean ====
section
/-! DEFINITION. How an operand is read and how a stored value becomes bytes: the arithmetic of 00_scope.md R5, R6,
30_encoding.md R53, R54 and 40_update_ops.md R66, R68, R72. All of it is exact integer arithmetic (R69). Where the rules
rest on a decision of the spec (D5 to D8, D15) it is followed (log entry 10). -/

namespace Sys2Proof.Machine

/-- `sval(val)`: the raw value of an operand read as signed (R5, R47). -/
def rawSigned (val : Word) : Int := val.toInt

/-- `tdiv`: division truncating toward zero (R6). -/
def tdiv (a b : Int) : Int := Int.tdiv a b

/-- `tmod a b = a - b * tdiv a b`, of the sign of `a` or zero (R6). -/
def tmod (a b : Int) : Int := a - b * tdiv a b

/-- `tc_XLEN(i)`: the two's-complement word of an integer (R5). -/
def tcWord (i : Int) : Word := BitVec.ofInt 32 i

/-- The signed split of a raw value into whole units and hundredths, both of its sign, truncated toward zero (R66). -/
def split (r : Int) : Int × Int :=
  (tdiv r Config.scale, tdiv (tmod r Config.scale) Config.fracUnit)

/-- The magnitude `m = abs(r)`, as a natural number, so it never overflows (R68). -/
def magnitude (r : Int) : Nat := r.natAbs

/-- Whole units of the magnitude (R68). -/
def magWhole (r : Int) : Nat := magnitude r / Config.scale

/-- Hundredths of the magnitude (R68). -/
def magFrac (r : Int) : Nat := magnitude r % Config.scale / Config.fracUnit

/-- `val[15:8]` (R54, R72). -/
def bits15to8 (val : Word) : Byte := val.extractLsb' 8 8

/-- `val[7:0]` (R54, R72). -/
def bits7to0 (val : Word) : Byte := val.extractLsb' 0 8

/-- `byte(v) = v[7:0]`: how a wide register enters a payload, silently wrapped (R53, R88, R94). -/
def byteOf (v : Word) : Byte := v.extractLsb' 0 8

/-- `zext_8` of the one-bit sign flag (R53, R87). -/
def flagByte (b : BitVec 1) : Byte := b.zeroExtend 8

end Sys2Proof.Machine
end

