-- ==== Sys2Proof/Machine/Flags.lean ====
section
/-! DEFINITION. The one flag of the machine, `pc_sign` (10_state.md R20). There is no carry, overflow, zero or negative
flag. -/

namespace Sys2Proof.Machine

/-- The sign of the magnitude split: 1 if the raw value is below zero, else 0, taken before the magnitude is cut, so -9
to -1 give 1 (R20, R68, R73). -/
def signFlag (r : Int) : BitVec 1 := if r < 0 then 1#1 else 0#1

end Sys2Proof.Machine
end

