-- ==== Sys2Proof/Machine/Frames.lean ====
section
/-! DEFINITION. The two frames, built fresh from one snapshot of the registers (30_encoding.md R49 to R53; 41_encode_op.md
R86 to R88, R93). -/

namespace Sys2Proof.Machine

/-- Frame A: panel voltage, panel power, battery voltage, charge status (R50, R86). -/
def frameA (snap : Telemetry) : Frame where
  id := Config.idA
  ide := 0#1
  rtr := 0#1
  dlc := Config.dlcA
  data := [byteOf snap.pvWhole, byteOf snap.pvFrac, snap.ppMsb, snap.ppLsb,
           byteOf snap.bvWhole, byteOf snap.bvFrac, byteOf snap.cs]

/-- Frame B: the panel current as sign, whole, hundredths (R51, R87). -/
def frameB (snap : Telemetry) : Frame where
  id := Config.idB
  ide := 0#1
  rtr := 0#1
  dlc := Config.dlcB
  data := [flagByte snap.pcSign, byteOf snap.pcWhole, byteOf snap.pcFrac]

/-- The frame of a tag. -/
def frameOf (tag : FrameTag) (snap : Telemetry) : Frame :=
  match tag with
  | .a => frameA snap
  | .b => frameB snap

end Sys2Proof.Machine
end

