-- ==== Sys2Proof/Machine/Ops.lean ====
section
/-! DEFINITION. The named operations over the state: writing the registers of one quantity (10_state.md R11 to R15),
handing a frame to the Transmit Driver (41_encode_op.md R90, R91), the clock (60_exceptions.md R139), and reset
(70_reset_and_hazards.md R155, R156). There is no operation that takes an exception and none that returns from one:
nothing traps (60_exceptions.md R125, R132, R133). -/

namespace Sys2Proof.Machine

/-! Writing the registers of one quantity together; every other register keeps its value (R11 to R16, R18, R36). -/

/-- The battery-voltage pair (R12). -/
def Telemetry.putBatteryVoltage (t : Telemetry) (whole frac : Word) : Telemetry :=
  { t with bvWhole := whole, bvFrac := frac }

/-- The panel-voltage pair (R11). -/
def Telemetry.putPanelVoltage (t : Telemetry) (whole frac : Word) : Telemetry :=
  { t with pvWhole := whole, pvFrac := frac }

/-- The panel-power pair (R13). -/
def Telemetry.putPanelPower (t : Telemetry) (msb lsb : Byte) : Telemetry :=
  { t with ppMsb := msb, ppLsb := lsb }

/-- The panel-current triple (R14). -/
def Telemetry.putPanelCurrent (t : Telemetry) (sign : BitVec 1) (whole frac : Word) : Telemetry :=
  { t with pcSign := sign, pcWhole := whole, pcFrac := frac }

/-- The charge status (R15). -/
def Telemetry.putChargeStatus (t : Telemetry) (code : Word) : Telemetry :=
  { t with cs := code }

/-- The state with other register contents and nothing else changed. -/
def State.setRegs (s : State) (t : Telemetry) : State := { s with regs := t }

/-! The diagnostic channel and the Transmit Driver. -/

/-- The events that reach the diagnostic channel: all of them, or none when `DIAG_EN` is false (R7, R91, R144). -/
def diagOut (es : List DiagEvent) : List DiagEvent := if Config.diagEn then es else []

/-- The driver's answer to the attempt of draw `n`: false on expiry of `TX_TIMEOUT`, otherwise free, so it is a Boolean
under no law (R90, R140, R142; log entries 1 and 8). -/
def txAnswer (n : Nat) : Bool := decide (Config.txDelay n ≤ Config.txTimeout) && Config.txAccept n

/-- The milliseconds the attempt of draw `n` holds the control loop: at most `TX_TIMEOUT` (R140; log entry 8). -/
def txTime (n : Nat) : Nat := min (Config.txDelay n) Config.txTimeout

/-- The clock reading `d` milliseconds after the reading `t`: a counter of `CLOCKW` bits (R139; log entry 4). -/
def clockAfter (t d : Nat) : Nat := (t + d) % 2 ^ Config.clockW

/-- `now - anchor` as the gate computes it; the value when the counter has wrapped is free (R135, R139; log entry 4). -/
def elapsed (now anchor : Nat) : Nat := if anchor ≤ now then now - anchor else Config.wrapElapsed now anchor

/-- A frame handed over and answered: `emit Tx(frame)`, then `emit Diag(tx_result(tag, ok))`. The answer is stored in no
register (R85, R90, R91). -/
def State.answered (s : State) (tag : FrameTag) (ok : Bool) : State :=
  { s with
    out := s.out ++ [{ frame := frameOf tag s.regs, ok := ok }]
    diag := s.diag ++ diagOut [.txResult tag ok] }

/-- One transmit attempt with the answer drawn (R90): the frame is handed over once, whatever the answer. -/
def State.attempt (s : State) (tag : FrameTag) : State :=
  { s.answered tag (txAnswer s.draws) with
    clock := clockAfter s.clock (txTime s.draws)
    draws := s.draws + 1 }

/-! The three moves of one ENCODE at the port level (R24, R48): taken, Frame A answered, Frame B answered. While `phase`
is not IDLE no command is taken, so the registers are the snapshot for both frames (R35, R161). -/

/-- ENCODE is taken. -/
def State.takeEncode (s : State) : State := { s with phase := .sendA }

/-- The attempt of Frame A is over; Frame B is attempted whatever the answer was (R89). -/
def State.answerA (s : State) : State := { s.attempt .a with phase := .sendB }

/-- The attempt of Frame B is over and the ENCODE complete (R24, R48). -/
def State.answerB (s : State) : State := { s.attempt .b with phase := .idle }

/-! Reset. -/

/-- A restart of the whole device: every register zero, `phase = IDLE`, and nothing of the input, the control loop or the
transmit results survives (R26, R155, R156). The two traces are what an observer has already seen, not the device's own,
and stay; a frame whose answer is still out when reset comes is not in them (DESIGN CHOICE, log entry 18). `anchor` is the
clock reading at reset (R137), which is free (log entries 3 and 5). -/
def State.restart (s : State) : State :=
  { State.reset with
    out := s.out
    diag := s.diag
    clock := Config.clockAtReset s.draws % 2 ^ Config.clockW
    anchor := Config.clockAtReset s.draws % 2 ^ Config.clockW
    draws := s.draws + 1 }

end Sys2Proof.Machine
end

