-- ==== Sys2Proof/Machine/Encode.lean ====
section
/-! DEFINITION. The meaning of ENCODE (41_encode_op.md R85). -/

namespace Sys2Proof.Machine

/-- ENCODE, one atomic step: Frame A is built from the registers, handed over and answered, then Frame B; no register
changes (R85, R89, R92). `val` is ignored. It is the effect of a command already taken, so
it starts from any `phase` (log entry 15). -/
def execEncode (_val : Word) (s : State) : Host.Outcome State Fault Refusal :=
  .next s.takeEncode.answerA.answerB

end Sys2Proof.Machine
end

