-- ==== Sys2Proof/Machine/Update.lean ====
section
/-! DEFINITION. The meanings of the commands that write the Telemetry State, and of the two that write nothing
(40_update_ops.md R65 to R76). Each takes its operand alone, reads no register, emits nothing and completes (R65). -/

namespace Sys2Proof.Machine

/-- NOP: nothing (R75). -/
def execNop (_val : Word) (s : State) : Host.Outcome State Fault Refusal := .next s

/-- UPD_V: battery voltage from raw millivolts by the signed split (R70). -/
def execUpdV (val : Word) (s : State) : Host.Outcome State Fault Refusal :=
  let wf := split (rawSigned val)
  .next (s.setRegs (s.regs.putBatteryVoltage (tcWord wf.1) (tcWord wf.2)))

/-- UPD_VPV: panel voltage from raw millivolts by the signed split (R71). -/
def execUpdVpv (val : Word) (s : State) : Host.Outcome State Fault Refusal :=
  let wf := split (rawSigned val)
  .next (s.setRegs (s.regs.putPanelVoltage (tcWord wf.1) (tcWord wf.2)))

/-- UPD_PPV: panel power from the low 16 bits of the raw watts (R72). -/
def execUpdPpv (val : Word) (s : State) : Host.Outcome State Fault Refusal :=
  .next (s.setRegs (s.regs.putPanelPower (bits15to8 val) (bits7to0 val)))

/-- UPD_I: panel current from raw milliamps by the magnitude split (R73). -/
def execUpdI (val : Word) (s : State) : Host.Outcome State Fault Refusal :=
  let r := rawSigned val
  .next (s.setRegs (s.regs.putPanelCurrent (signFlag r) (tcWord (magWhole r)) (tcWord (magFrac r))))

/-- UPD_CS: charge status, the operand verbatim (R74). -/
def execUpdCs (val : Word) (s : State) : Host.Outcome State Fault Refusal :=
  .next (s.setRegs (s.regs.putChargeStatus val))

/-- RSV7: the reserved opcode behaves as NOP and is never a fault (R57, R76). -/
def execRsv7 (_val : Word) (s : State) : Host.Outcome State Fault Refusal := .next s

end Sys2Proof.Machine
end

