-- ==== Sys2Proof/Machine/Dispatch.lean ====
section
/-! DEFINITION. One arm per command (30_encoding.md R56). -/

namespace Sys2Proof.Machine

def exec (i : Instr) (s : State) : Host.Outcome State Fault Refusal :=
  match i with
  | .nop val => Sys2Proof.Machine.execNop val s
  | .updV val => Sys2Proof.Machine.execUpdV val s
  | .updVpv val => Sys2Proof.Machine.execUpdVpv val s
  | .updPpv val => Sys2Proof.Machine.execUpdPpv val s
  | .updI val => Sys2Proof.Machine.execUpdI val s
  | .updCs val => Sys2Proof.Machine.execUpdCs val s
  | .encode val => Sys2Proof.Machine.execEncode val s
  | .rsv7 val => Sys2Proof.Machine.execRsv7 val s

end Sys2Proof.Machine
end

