-- ==== Sys2Proof/Machine/Frontend.lean ====
section
/-! DEFINITION. The line front end, the part of the environment that turns text lines into commands
(42_line_frontend.md). It never fails: each function below is total (R114). -/

namespace Sys2Proof.Machine

/-- The bytes of an ASCII text, for the literals of the spec. -/
def ascii (cs : List Char) : Bytes := cs.map fun c => BitVec.ofNat 8 c.toNat

/-- Horizontal tab, the delimiter (R101). -/
def tabByte : Byte := 0x09#8

/-- Line feed, the terminator (R101). -/
def lfByte : Byte := 0x0A#8

/-! Line extraction (R102). -/

/-- The fully available lines of the buffer, without their LF and oldest first, and the bytes after the last LF, which
stay. A carriage return is an ordinary byte (R102). -/
def drainLines : Bytes → List Bytes × Bytes
  | [] => ([], [])
  | b :: bs =>
    match drainLines bs with
    | (lines, rest) =>
      if b = lfByte then ([] :: lines, rest)
      else match lines with
        | [] => ([], b :: rest)
        | line :: more => ((b :: line) :: more, rest)

/-- What the line buffer hands on for one line: the line itself up to `LINE_MAX`; for a longer one the spec says nothing
and the result is free (R102, N13; log entry 6). `n` is the draw of the firing. -/
def bufferLine (n : Nat) (line : Bytes) : List Bytes :=
  if line.length ≤ Config.lineMax then [line] else Config.overlongLine n line

/-! The tokenizer (R103 to R105). -/

/-- The bytes before the first `d`, and the bytes after it if there is one. -/
def cutAt (d : Byte) : Bytes → Bytes × Option Bytes
  | [] => ([], none)
  | b :: bs =>
    if b = d then ([], some bs)
    else match cutAt d bs with
      | (before, after) => (b :: before, after)

/-- The algorithm of R103 with the cursor as "the bytes not yet read": each round takes a key up to a TAB and a value up
to the next TAB or the end of the line; a key with no TAB after it yields no pair. The fuel bounds the rounds. -/
def tokenizeFuel : Nat → Bytes → List (Bytes × Bytes)
  | 0, _ => []
  | n + 1, s =>
    match cutAt tabByte s with
    | (_, none) => []
    | (key, some rest) =>
      match cutAt tabByte rest with
      | (value, none) => [(key, value)]
      | (value, some rest') => (key, value) :: tokenizeFuel n rest'

/-- `Tokenize(s)` (R103). Each round reads at least one byte, so `len(s) + 1` rounds are enough. -/
def tokenize (s : Bytes) : List (Bytes × Bytes) := tokenizeFuel (s.length + 1) s

/-! `ToInt` (R108, R109). -/

/-- A decimal digit, 0x30 to 0x39 (R108). -/
def isDigit (b : Byte) : Bool := decide (0x30 ≤ b.toNat) && decide (b.toNat ≤ 0x39)

/-- The number a string of digits writes, leading zeros allowed (R108). -/
def digitsValue (ds : Bytes) : Nat := ds.foldl (fun acc d => 10 * acc + (d.toNat - 0x30)) 0

/-- One or more decimal digits, read as a number (R108). -/
def readDigits (ds : Bytes) : Option Nat :=
  if ds ≠ [] ∧ ds.all isDigit = true then some (digitsValue ds) else none

/-- An optional `-` followed by one or more decimal digits, read as an integer (R108; also the operand syntax of R60). -/
def readInt : Bytes → Option Int
  | [] => none
  | b :: bs =>
    if b = 0x2D#8 then (readDigits bs).map fun (n : Nat) => -(n : Int)
    else (readDigits (b :: bs)).map fun (n : Nat) => (n : Int)

/-- The three classes of value tokens (R108). -/
inductive TokenClass where
  | numeric (z : Int)
  | nonNumeric
  | mixed
  deriving DecidableEq, Repr

/-- The class of a token (R108). -/
def classify (token : Bytes) : TokenClass :=
  match readInt token with
  | some z => if operandInRange z then .numeric z else .mixed
  | none => if token.any isDigit then .mixed else .nonNumeric

/-- `ToInt(token)`: the number of a numeric token, zero for a non-numeric one (R109), free for a mixed one (R108). -/
def toInt (token : Bytes) : Word :=
  match classify token with
  | .numeric z => BitVec.ofInt 32 z
  | .nonNumeric => 0#32
  | .mixed => Config.toIntMixed token

/-! Dispatch (R106, R107, R110, R111). -/

def keyV : Bytes := ascii ['V']
def keyVpv : Bytes := ascii ['V', 'P', 'V']
def keyPpv : Bytes := ascii ['P', 'P', 'V']
def keyI : Bytes := ascii ['I']
def keyCs : Bytes := ascii ['C', 'S']

/-- The twelve diagnostic-only keys (R106, R110). -/
def diagKeys : List Bytes :=
  [ascii ['L', 'O', 'A', 'D'], ascii ['H', '1', '9'], ascii ['H', '2', '0'], ascii ['H', '2', '1'],
   ascii ['H', '2', '2'], ascii ['H', '2', '3'], ascii ['E', 'R', 'R'], ascii ['F', 'W'],
   ascii ['P', 'I', 'D'], ascii ['S', 'E', 'R', '#'], ascii ['H', 'S', 'D', 'S'], ascii ['M', 'P', 'P', 'T']]

/-- Whether a key is one of the five that feed the Telemetry State; the comparison is of the whole key, byte for byte
(R107). -/
def isRecognised (key : Bytes) : Bool :=
  decide (key ∈ [keyV, keyVpv, keyPpv, keyI, keyCs])

/-- The command issued for a pair: exactly one (R106). Any key but the five becomes NOP (R110, R111). -/
def pairCommand (key value : Bytes) : Instr :=
  if key = keyV then .updV (toInt value)
  else if key = keyVpv then .updVpv (toInt value)
  else if key = keyPpv then .updPpv (toInt value)
  else if key = keyI then .updI (toInt value)
  else if key = keyCs then .updCs (toInt value)
  else .nop 0#32

/-- The diagnostic event of a pair, when the channel exists: a decode result for a recognised key (R113), a display of
free content for a diagnostic-only key (R110), none for any other key (R111). -/
def pairDiag (key value : Bytes) : List DiagEvent :=
  if isRecognised key then [.decoded key value (pairCommand key value)]
  else if key ∈ diagKeys then [.display key (Config.displayText key value)]
  else []

/-- The commands of one line, in the order of its pairs (R106, R112). -/
def lineCommands (line : Bytes) : List Instr := (tokenize line).map fun p => pairCommand p.1 p.2

/-- The diagnostic events of one line: its echo, then its pairs in order (R110, R113). -/
def lineDiag (line : Bytes) : List DiagEvent :=
  .rawLine line :: (tokenize line).flatMap fun p => pairDiag p.1 p.2

end Sys2Proof.Machine
end

