-- ==== Sys2Proof/Machine/Gate.lean ====
section
/-! DEFINITION. The control loop of the environment: the period gate, a firing, the anchor (60_exceptions.md R131, R135 to
R137, R139; 70_reset_and_hazards.md R162). -/

namespace Sys2Proof.Machine

/-- The gate is Due exactly when `now - anchor >= PERIOD`, else Idle (R135). -/
def State.gateDue (s : State) : Bool := decide (Config.period ≤ elapsed s.clock s.anchor)

/-- The lines a firing hands to the front end: every fully available one, oldest first (R102, R131, R136). -/
def State.drained (s : State) : List Bytes := (drainLines s.rx).1.flatMap (bufferLine s.draws)

/-- The commands of a firing as a stream: those of every drained line, then one ENCODE (R136, R162). -/
def State.firingCommands (s : State) : List Instr := s.drained.flatMap lineCommands ++ [.encode 0#32]

/-- A firing begins: the available lines are drained and their commands, then one ENCODE, presented to the block (R136).
With no line available it presents just the ENCODE. Bytes after the last LF stay for a later firing (R102, R131). -/
def State.fire (s : State) : State :=
  { s with
    cmds := s.cmds ++ s.firingCommands.map encode
    rx := (drainLines s.rx).2
    diag := s.diag ++ diagOut (s.drained.flatMap lineDiag)
    loop := .firing
    draws := s.draws + 1 }

/-- The end of a firing: `anchor <- now`, read after both transmit attempts; the gate returns to Idle (R137). -/
def State.reanchor (s : State) : State := { s with anchor := s.clock, loop := .polling }

/-- One poll while the gate is Idle: some time passes and some bytes arrive, both free; nothing is issued and no input is
consumed (R135; log entry 7). -/
def State.poll (s : State) : State :=
  { s with
    rx := s.rx ++ Config.serialIn s.draws
    clock := clockAfter s.clock (Config.pollTime s.draws)
    draws := s.draws + 1 }

/-- The control loop's move when no command is waiting at the port. -/
def State.control (s : State) : State :=
  match s.loop with
  | .firing => s.reanchor
  | .polling => if s.gateDue then s.fire else s.poll

end Sys2Proof.Machine
end

