-- ==== Sys2Proof/Machine/Step.lean ====
section
/-! DEFINITION. One step of the machine (00_scope.md R8, 20_memory.md R38): exactly one agent moves. -/

namespace Sys2Proof.Machine

/-- One step. While `rst` is asserted no command is taken and no frame handed over (R155). While an ENCODE is under way
the answer to its frame comes next and no command is taken (R48, R161). Otherwise the oldest command at the port is taken,
decoded and executed as one step (R38, R48); if there is none, the control loop moves (R131, R136). The order is log entry 2. -/
def step (s : State) : Host.Outcome State Fault Refusal :=
  if s.rst then .next s.restart
  else match s.phase with
    | .sendA => .next s.answerA
    | .sendB => .next s.answerB
    | .idle =>
      match s.cmds with
      | w :: rest => exec (decode w) { s with cmds := rest }
      | [] => .next s.control

/-- The state with a command word placed where the next step takes its command: at the head of the command list, with the
port ready to take it (log entry 11). -/
def State.withFetchWord (s : State) (nbits w : Nat) : State :=
  { s with
    rst := false
    phase := .idle
    cmds := BitVec.ofNat 35 (w % 2 ^ nbits) :: s.cmds }

end Sys2Proof.Machine
end

