-- ==== Sys2Proof/Machine/Port.lean ====
section
/-! DEFINITION. The block at the port level, one clock cycle at a time: the command port (30_encoding.md R48), the frame
port (60_exceptions.md R142), the reset input (70_reset_and_hazards.md R155). It refines the transaction level of `exec`
(10_state.md R24): here one ENCODE takes several cycles and the driver's answers are inputs (log entry 16). -/

namespace Sys2Proof.Machine

/-- The input signals of one cycle (R48, R142, R155). -/
structure PortIn where
  rst : Bool         -- the reset input
  cmdValid : Bool    -- a command word is presented
  cmdWord : CmdWord  -- the word, meaningful when `cmdValid`
  txDone : Bool      -- the Transmit Driver answers the frame at the port
  txOk : Bool        -- its answer, meaningful when `txDone`
  deriving DecidableEq, Repr

/-- The output signals of one cycle (R48, R142). -/
structure PortOut where
  cmdReady : Bool       -- a presented command is taken in this cycle
  txFrame : Option Frame -- `some f` is `tx_valid` with the descriptor at `tx_id`, `tx_ide`, `tx_rtr`, `tx_dlc`, `tx_data`
  deriving DecidableEq, Repr

/-- The outputs: ready exactly when `phase` is IDLE and reset is not asserted; a frame is at the frame port from the
taking of an ENCODE to its answer (R24, R48, R142, R155). -/
def portOut (rst : Bool) (s : State) : PortOut :=
  if rst then { cmdReady := false, txFrame := none }
  else match s.phase with
    | .idle => { cmdReady := true, txFrame := none }
    | .sendA => { cmdReady := false, txFrame := some (frameA s.regs) }
    | .sendB => { cmdReady := false, txFrame := some (frameB s.regs) }

/-- A command is taken: an ENCODE starts its sequence, any other command completes in the cycle it is taken (R48). -/
def portTake (i : Instr) (s : State) : State :=
  match i with
  | .encode _ => s.takeEncode
  | .nop val => portDone (execNop val s) s
  | .updV val => portDone (execUpdV val s) s
  | .updVpv val => portDone (execUpdVpv val s) s
  | .updPpv val => portDone (execUpdPpv val s) s
  | .updI val => portDone (execUpdI val s) s
  | .updCs val => portDone (execUpdCs val s) s
  | .rsv7 val => portDone (execRsv7 val s) s
where
  /-- The state a completed command leaves (every command completes, R125). -/
  portDone (o : Host.Outcome State Fault Refusal) (s : State) : State :=
    match o with
    | .next t => t
    | .fault _ => s
    | .refused _ => s

/-- One cycle. A command is taken when `cmd_valid` and `cmd_ready` are both 1 and nothing is executed otherwise; a frame
waits at the port until `tx_done` (R48, R142). DESIGN CHOICE (unsafe for claims about the trace across a reset): a frame
enters the output trace, and its event the diagnostic trace, in the cycle of its answer, so a frame at the port and not yet
answered when reset comes never enters either; the spec gives no trace for an attempt that a reset cuts off (R7, R90, R156;
log entry 18). -/
def portCycle (i : PortIn) (s : State) : State :=
  if i.rst then s.restart
  else match s.phase with
    | .idle => if i.cmdValid then portTake (decode i.cmdWord) s else s
    | .sendA => if i.txDone then { s.answered .a i.txOk with phase := .sendB } else s
    | .sendB => if i.txDone then { s.answered .b i.txOk with phase := .idle } else s

/-- The cycles of a sequence of inputs. -/
def portRun (s : State) : List PortIn → State
  | [] => s
  | i :: is => portRun (portCycle i s) is

end Sys2Proof.Machine
end

