-- ==== Sys2Proof/Machine/Text.lean ====
section
/-! DEFINITION. The text syntax of commands: the assembler and the disassembler of 30_encoding.md R60 and R62. -/

namespace Sys2Proof.Machine

/-- The mnemonic of a command as text (R56, R60). -/
def mnemonicText : Instr → Bytes
  | .nop _ => ascii ['N', 'O', 'P']
  | .updV _ => ascii ['U', 'P', 'D', '_', 'V']
  | .updVpv _ => ascii ['U', 'P', 'D', '_', 'V', 'P', 'V']
  | .updPpv _ => ascii ['U', 'P', 'D', '_', 'P', 'P', 'V']
  | .updI _ => ascii ['U', 'P', 'D', '_', 'I']
  | .updCs _ => ascii ['U', 'P', 'D', '_', 'C', 'S']
  | .encode _ => ascii ['E', 'N', 'C', 'O', 'D', 'E']
  | .rsv7 _ => ascii ['R', 'S', 'V', '7']

/-- Whether a command ignores its operand; such a command may be written without one (R54, R60). -/
def ignoresOperand : Instr → Bool
  | .nop _ => true
  | .encode _ => true
  | .rsv7 _ => true
  | .updV _ => false
  | .updVpv _ => false
  | .updPpv _ => false
  | .updI _ => false
  | .updCs _ => false

/-- The command of each mnemonic, by opcode, with a given operand (R56). -/
def ofMnemonic (text : Bytes) (val : Word) : Option Instr :=
  ((List.range 8).map fun op => instrOf (BitVec.ofNat 3 op) val).find? fun i => mnemonicText i == text

/-- A blank: space or horizontal tab (the spec shows spaces only; log entry 12). -/
def isBlank (b : Byte) : Bool := b == 0x20#8 || b == 0x09#8

/-- The text before a `#`, which opens a comment to the end of the line (R60). -/
def stripComment (s : Bytes) : Bytes := s.takeWhile fun b => b != 0x23#8

/-- The word the text begins with (empty if it begins with a blank) and the words after it. -/
def wordsFrom : Bytes → Bytes × List Bytes
  | [] => ([], [])
  | b :: bs =>
    match wordsFrom bs with
    | (cur, ws) => if isBlank b then ([], if cur = [] then ws else cur :: ws) else (b :: cur, ws)

/-- The words of a text between its blanks. -/
def words (s : Bytes) : List Bytes :=
  match wordsFrom s with
  | (cur, ws) => if cur = [] then ws else cur :: ws

/-- Why a line of text is not a command. -/
inductive AsmError where
  | unknownMnemonic    -- the first word is no mnemonic of R56
  | missingOperand     -- an update command without its integer (R60)
  | badOperand         -- the second word is not a decimal integer with an optional leading minus (R60)
  | operandOutOfRange  -- the integer is outside the range of R47
  | trailingText       -- a third word
  deriving DecidableEq, Repr

/-- The assembler, one line: no command for an empty or comment line; NOP, ENCODE and RSV7 without an integer assemble
with `val = 0` (R60, R62). -/
def assembleLine (s : Bytes) : Except AsmError (Option CmdWord) :=
  match words (stripComment s) with
  | [] => .ok none
  | [m] =>
    match ofMnemonic m 0#32 with
    | none => .error .unknownMnemonic
    | some i => if ignoresOperand i then .ok (some (encode i)) else .error .missingOperand
  | [m, a] =>
    match ofMnemonic m 0#32 with
    | none => .error .unknownMnemonic
    | some i =>
      match readInt a with
      | none => .error .badOperand
      | some z =>
        if operandInRange z then .ok (some (encode (instrOf i.op (BitVec.ofInt 32 z))))
        else .error .operandOutOfRange
  | _ :: _ :: _ :: _ => .error .trailingText

/-- The decimal digits of a number below `10 ^ fuel`, most significant first. -/
def natText : Nat → Nat → Bytes
  | 0, _ => []
  | fuel + 1, n =>
    if n < 10 then [BitVec.ofNat 8 (0x30 + n)] else natText fuel (n / 10) ++ [BitVec.ofNat 8 (0x30 + n % 10)]

/-- An operand as a decimal integer; ten digits are enough for `2^31` (R47, R60). -/
def intText (z : Int) : Bytes :=
  if z < 0 then 0x2D#8 :: natText 10 z.natAbs else natText 10 z.natAbs

/-- The disassembler: an update command with its integer; NOP, ENCODE and RSV7 with the integer only when `val` is not
zero (R60, R62). -/
def disassemble (w : CmdWord) : Bytes :=
  let i := decode w
  if ignoresOperand i && i.val == 0#32 then mnemonicText i
  else mnemonicText i ++ 0x20#8 :: intText i.val.toInt

end Sys2Proof.Machine
end

