-- ==== Sys2Proof/Safety.lean ====
section
/-! DEFINITION. The terms in which claims are made: what a run is (70_reset_and_hazards.md R167), the ranges of the stored
values (10_state.md R17), the shape of a frame and of the output trace (30_encoding.md R49, 20_memory.md R39), the shape
of the command stream the environment issues (20_memory.md R40). -/

namespace Sys2Proof

/-- A command the front end issues for a pair: an update or NOP, never ENCODE and never the reserved code (R57, R106). -/
def Instr.isUpdateOrNop : Instr → Bool
  | .nop _ => true
  | .updV _ => true
  | .updVpv _ => true
  | .updPpv _ => true
  | .updI _ => true
  | .updCs _ => true
  | .encode _ => false
  | .rsv7 _ => false

/-- Whether a command is ENCODE. -/
def Instr.isEncode : Instr → Bool
  | .encode _ => true
  | .nop _ => false
  | .updV _ => false
  | .updVpv _ => false
  | .updPpv _ => false
  | .updI _ => false
  | .updCs _ => false
  | .rsv7 _ => false

/-- The quantity an update command writes, by its opcode; `none` for a command that writes no register (R34). -/
def Instr.quantity : Instr → Option (BitVec 3)
  | .nop _ => none
  | .updV _ => some 1#3
  | .updVpv _ => some 2#3
  | .updPpv _ => some 3#3
  | .updI _ => some 4#3
  | .updCs _ => some 5#3
  | .encode _ => none
  | .rsv7 _ => none

end Sys2Proof

namespace Sys2Proof.Machine

/-- The run of a finite command list, stopping at the first fault or refusal (R38, R167). -/
def runList : List Instr → State → Host.Outcome State Fault Refusal
  | [], s => .next s
  | i :: is, s =>
    match exec i s with
    | .next t => runList is t
    | .fault r => .fault r
    | .refused r => .refused r

/-- `n` steps of the whole machine, stopping at the first fault or refusal. -/
def steps : Nat → State → Host.Outcome State Fault Refusal
  | 0, s => .next s
  | n + 1, s =>
    match step s with
    | .next t => steps n t
    | .fault r => .fault r
    | .refused r => .refused r

/-- The ranges of the store in every reachable state (R17): a voltage's parts are bounded and never of opposite sign, the
current's parts are bounded. -/
structure Telemetry.InRange (t : Telemetry) : Prop where
  pvWhole : -2147483 ≤ t.pvWhole.toInt ∧ t.pvWhole.toInt ≤ 2147483
  pvFrac : -99 ≤ t.pvFrac.toInt ∧ t.pvFrac.toInt ≤ 99
  pvSign : (0 < t.pvWhole.toInt → 0 ≤ t.pvFrac.toInt) ∧ (t.pvWhole.toInt < 0 → t.pvFrac.toInt ≤ 0)
  bvWhole : -2147483 ≤ t.bvWhole.toInt ∧ t.bvWhole.toInt ≤ 2147483
  bvFrac : -99 ≤ t.bvFrac.toInt ∧ t.bvFrac.toInt ≤ 99
  bvSign : (0 < t.bvWhole.toInt → 0 ≤ t.bvFrac.toInt) ∧ (t.bvWhole.toInt < 0 → t.bvFrac.toInt ≤ 0)
  pcWhole : t.pcWhole.toNat ≤ 2147483
  pcFrac : t.pcFrac.toNat ≤ 99

/-- A descriptor carries exactly `dlc` data bytes (R49), and the frame port has room for eight (R142). -/
abbrev Frame.wf (f : Frame) : Prop := f.data.length = f.dlc.toNat ∧ f.dlc.toNat ≤ 8

/-- The constant part of Frame A: identifier, flags and length (R49, R52). -/
abbrev Frame.isA (f : Frame) : Prop :=
  f.id = 0x02C#11 ∧ f.ide = 0#1 ∧ f.rtr = 0#1 ∧ f.dlc = 7#4 ∧ f.data.length = 7

/-- The constant part of Frame B (R49, R52). -/
abbrev Frame.isB (f : Frame) : Prop :=
  f.id = 0x02D#11 ∧ f.ide = 0#1 ∧ f.rtr = 0#1 ∧ f.dlc = 3#4 ∧ f.data.length = 3

/-- The output trace is A, B, A, B, ... with both frames of every ENCODE in it (R39, R89). -/
def framesPaired : List Attempt → Prop
  | [] => True
  | [_] => False
  | x :: y :: rest => x.frame.isA ∧ y.frame.isB ∧ framesPaired rest

/-- Between two commands: no ENCODE is under way (R24) and the output trace is made of whole pairs (R39). -/
def State.Paired (s : State) : Prop := s.phase = .idle ∧ framesPaired s.out

/-- The clock and the anchor are readings of a counter of `CLOCKW` bits (R139). -/
def State.ClockReadings (s : State) : Prop := s.clock < 2 ^ Config.clockW ∧ s.anchor < 2 ^ Config.clockW

/-- What is left of one firing's commands: (update or NOP)* and then one ENCODE (R40, R136). -/
def firingRest : List CmdWord → Prop
  | [] => False
  | w :: ws => ((decode w).isEncode = true ∧ ws = []) ∨ ((decode w).isUpdateOrNop = true ∧ firingRest ws)

/-- The commands at the port are those of a firing that is under way, or there are none (R40, R136). -/
def State.EnvironmentShaped (s : State) : Prop := s.cmds = [] ∨ (s.loop = .firing ∧ firingRest s.cmds)

/-- The well-formed line of a list of pairs, `K1 TAB V1 TAB K2 TAB V2 ...`, without a trailing TAB (R105). -/
def pairsLine : List (Bytes × Bytes) → Bytes
  | [] => []
  | [(key, value)] => key ++ tabByte :: value
  | (key, value) :: p :: more => key ++ tabByte :: value ++ tabByte :: pairsLine (p :: more)

/-- The front end's diagnostic events for one line, written out from R110, R111 and R113: its raw text, then for each pair a
decode result for one of the five keys, one display event for one of the twelve, none for any other key (log entry 9). -/
def lineEvents (line : Bytes) : List DiagEvent :=
  .rawLine line :: (tokenize line).flatMap fun p =>
    if p.1 ∈ [ascii ['V'], ascii ['V', 'P', 'V'], ascii ['P', 'P', 'V'], ascii ['I'], ascii ['C', 'S']] then
      [.decoded p.1 p.2 (pairCommand p.1 p.2)]
    else if p.1 ∈ [ascii ['L', 'O', 'A', 'D'], ascii ['H', '1', '9'], ascii ['H', '2', '0'], ascii ['H', '2', '1'],
        ascii ['H', '2', '2'], ascii ['H', '2', '3'], ascii ['E', 'R', 'R'], ascii ['F', 'W'], ascii ['P', 'I', 'D'],
        ascii ['S', 'E', 'R', '#'], ascii ['H', 'S', 'D', 'S'], ascii ['M', 'P', 'P', 'T']] then
      [.display p.1 (Config.displayText p.1 p.2)]
    else []

/-- The attempt a diagnostic event reports, for frames built from `regs`; none for an event of the front end (R91). -/
def DiagEvent.reported (regs : Telemetry) : DiagEvent → Option Attempt
  | .txResult .a ok => some { frame := frameA regs, ok := ok }
  | .txResult .b ok => some { frame := frameB regs, ok := ok }
  | .rawLine _ => none
  | .decoded _ _ _ => none
  | .display _ _ => none

/-- The operand of the last command of a list that `pick` selects, if there is one (R77). -/
def lastOperand (pick : Instr → Option Word) (is : List Instr) : Option Word := (is.filterMap pick).getLast?

/-- The operand of UPD_V. -/
def operandV : Instr → Option Word
  | .updV val => some val
  | _ => none

/-- The operand of UPD_VPV. -/
def operandVpv : Instr → Option Word
  | .updVpv val => some val
  | _ => none

/-- The operand of UPD_PPV. -/
def operandPpv : Instr → Option Word
  | .updPpv val => some val
  | _ => none

/-- The operand of UPD_I. -/
def operandI : Instr → Option Word
  | .updI val => some val
  | _ => none

/-- The operand of UPD_CS. -/
def operandCs : Instr → Option Word
  | .updCs val => some val
  | _ => none

end Sys2Proof.Machine
end

