-- ==== Sys2Proof/Certificates/Slice0/Obligations.lean ====
section
/-! DEFINITION. The statements for the provers, from the numbered rules of spec/. -/

open Sys2Proof Sys2Proof.Machine

/-! ## Encoding -/

/-- 30_encoding.md R56, R46 and opcode_table.json: a word that matches a row's `match` under the mask `0x700000000`
decodes to that row's command with the word's low 32 bits as operand; the eight rows, one clause each. -/
def Obligations.EveryWordSelectsItsTableRow : Prop :=
  ∀ w : CmdWord,
    (w &&& 0x700000000#35 = 0x000000000#35 → decode w = .nop (w.setWidth 32)) ∧
    (w &&& 0x700000000#35 = 0x100000000#35 → decode w = .updV (w.setWidth 32)) ∧
    (w &&& 0x700000000#35 = 0x200000000#35 → decode w = .updVpv (w.setWidth 32)) ∧
    (w &&& 0x700000000#35 = 0x300000000#35 → decode w = .updPpv (w.setWidth 32)) ∧
    (w &&& 0x700000000#35 = 0x400000000#35 → decode w = .updI (w.setWidth 32)) ∧
    (w &&& 0x700000000#35 = 0x500000000#35 → decode w = .updCs (w.setWidth 32)) ∧
    (w &&& 0x700000000#35 = 0x600000000#35 → decode w = .encode (w.setWidth 32)) ∧
    (w &&& 0x700000000#35 = 0x700000000#35 → decode w = .rsv7 (w.setWidth 32))

/-- R45, R56: decoding the word of a command gives the command back, for every command and every operand. -/
def Obligations.DecodeOfEncodeIsTheCommand : Prop :=
  ∀ i : Instr, decode (encode i) = i

/-- R45, R56, R62: encoding what a word decodes to gives the word back, so no bit of a word is lost. -/
def Obligations.EncodeOfDecodeIsTheWord : Prop :=
  ∀ w : CmdWord, encode (decode w) = w

/-- Words written out in 95_test_vectors.md decode to the command they stand for there, one of each mnemonic. -/
def Obligations.WordsOfTheTestVectorsDecode : Prop :=
  decode 0x00000004D#35 = .nop 77#32 ∧
  decode 0x100003034#35 = .updV 12340#32 ∧
  decode 0x200004844#35 = .updVpv 18500#32 ∧
  decode 0x3000003E8#35 = .updPpv 1000#32 ∧
  decode 0x4FFFFF63C#35 = .updI (BitVec.ofInt 32 (-2500)) ∧
  decode 0x500000103#35 = .updCs 259#32 ∧
  decode 0x600000000#35 = .encode 0#32 ∧
  decode 0x700000005#35 = .rsv7 5#32

/-- R62: the assembler emits `val = 0` for NOP, ENCODE and RSV7 written alone, and assembling what the disassembler
prints for a word gives that word. -/
def Obligations.AssembleOfDisassembleIsTheWord : Prop :=
  assembleLine (ascii ['N', 'O', 'P']) = .ok (some 0x000000000#35) ∧
  assembleLine (ascii ['E', 'N', 'C', 'O', 'D', 'E']) = .ok (some 0x600000000#35) ∧
  assembleLine (ascii ['R', 'S', 'V', '7']) = .ok (some 0x700000000#35) ∧
  ∀ w : CmdWord, assembleLine (disassemble w) = .ok (some w)

/-! ## What each command does

Each equation is also the command's frame: every field it does not name is unchanged. Each names the word of the command
and the telemetry key it comes from. -/

/-- R75: NOP, with any operand, completes and leaves the whole state as it was; it is what a pair with a key other than
the five becomes. -/
def Obligations.NopChangesNothing : Prop :=
  (∀ (val : Word) (s : State), decode (0#3 ++ val) = .nop val ∧ exec (.nop val) s = .next s) ∧
  ∀ key value : Bytes,
    key ∉ [ascii ['V'], ascii ['V', 'P', 'V'], ascii ['P', 'P', 'V'], ascii ['I'], ascii ['C', 'S']] →
      pairCommand key value = .nop 0#32

/-- R76: RSV7, with any operand, completes and leaves the whole state as it was; it raises nothing. -/
def Obligations.ReservedCodeChangesNothing : Prop :=
  ∀ (val : Word) (s : State), decode (7#3 ++ val) = .rsv7 val ∧ exec (.rsv7 val) s = .next s

/-- R70: UPD_V writes the battery-voltage pair with the truncating split of the signed operand, and nothing else. -/
def Obligations.UpdVWritesBatteryVoltage : Prop :=
  ∀ (val : Word) (s : State), decode (1#3 ++ val) = .updV val ∧
    (∀ token, pairCommand (ascii ['V']) token = .updV (toInt token)) ∧
    exec (.updV val) s = .next { s with regs := { s.regs with
      bvWhole := BitVec.ofInt 32 (Int.tdiv val.toInt 1000)
      bvFrac := BitVec.ofInt 32 (Int.tdiv (Int.tmod val.toInt 1000) 10) } }

/-- R71: UPD_VPV writes the panel-voltage pair with the truncating split of the signed operand, and nothing else. -/
def Obligations.UpdVpvWritesPanelVoltage : Prop :=
  ∀ (val : Word) (s : State), decode (2#3 ++ val) = .updVpv val ∧
    (∀ token, pairCommand (ascii ['V', 'P', 'V']) token = .updVpv (toInt token)) ∧
    exec (.updVpv val) s = .next { s with regs := { s.regs with
      pvWhole := BitVec.ofInt 32 (Int.tdiv val.toInt 1000)
      pvFrac := BitVec.ofInt 32 (Int.tdiv (Int.tmod val.toInt 1000) 10) } }

/-- R72: UPD_PPV writes bits 15 to 8 and 7 to 0 of the operand, drops the rest, and writes nothing else; for an operand
of 0 to 65535 the pair is the raw value in watts. -/
def Obligations.UpdPpvWritesPanelPower : Prop :=
  ∀ (val : Word) (s : State), decode (3#3 ++ val) = .updPpv val ∧
    (∀ token, pairCommand (ascii ['P', 'P', 'V']) token = .updPpv (toInt token)) ∧
    exec (.updPpv val) s = .next { s with regs := { s.regs with
      ppMsb := (val >>> 8).setWidth 8
      ppLsb := val.setWidth 8 } } ∧
    (val.toNat ≤ 65535 → 256 * ((val >>> 8).setWidth 8).toNat + (val.setWidth 8).toNat = val.toNat)

/-- R73: UPD_I writes the sign flag (1 exactly for a negative operand), whole amps and hundredths of the magnitude, and
nothing else. -/
def Obligations.UpdIWritesPanelCurrent : Prop :=
  ∀ (val : Word) (s : State), decode (4#3 ++ val) = .updI val ∧
    (∀ token, pairCommand (ascii ['I']) token = .updI (toInt token)) ∧
    exec (.updI val) s = .next { s with regs := { s.regs with
      pcSign := if val.toInt < 0 then 1#1 else 0#1
      pcWhole := BitVec.ofNat 32 (val.toInt.natAbs / 1000)
      pcFrac := BitVec.ofNat 32 (val.toInt.natAbs % 1000 / 10) } }

/-- R74: UPD_CS stores its operand verbatim, and writes nothing else. -/
def Obligations.UpdCsStoresTheCodeVerbatim : Prop :=
  ∀ (val : Word) (s : State), decode (5#3 ++ val) = .updCs val ∧
    (∀ token, pairCommand (ascii ['C', 'S']) token = .updCs (toInt token)) ∧
    exec (.updCs val) s = .next { s with regs := { s.regs with cs := val } }

/-- R86, R87, R92, R91: ENCODE completes from every state with both frames of the registers handed over, A then B, each
with one answer; each answer goes to the diagnostic channel when it exists; no register changes, and nothing else but the
clock and the draw counter. -/
def Obligations.EncodeHandsOverFrameAThenFrameB : Prop :=
  ∀ (val : Word) (s : State), decode (6#3 ++ val) = .encode val ∧
    ∃ (okA okB : Bool) (now draws : Nat),
      exec (.encode val) s = .next { s with
        phase := .idle
        out := s.out ++
          [{ frame := { id := 0x02C#11, ide := 0#1, rtr := 0#1, dlc := 7#4,
                        data := [s.regs.pvWhole.setWidth 8, s.regs.pvFrac.setWidth 8, s.regs.ppMsb, s.regs.ppLsb,
                                 s.regs.bvWhole.setWidth 8, s.regs.bvFrac.setWidth 8, s.regs.cs.setWidth 8] },
             ok := okA },
           { frame := { id := 0x02D#11, ide := 0#1, rtr := 0#1, dlc := 3#4,
                        data := [s.regs.pcSign.setWidth 8, s.regs.pcWhole.setWidth 8, s.regs.pcFrac.setWidth 8] },
             ok := okB }]
        diag := s.diag ++ (if Config.diagEn then [.txResult .a okA, .txResult .b okB] else [])
        clock := now
        draws := draws }

/-- R140, R170, R90, R171: the attempt of each frame holds the control loop for the time the driver needs, cut at 10 ms, so
an ENCODE moves the clock on by at most 20 ms; the answer that stands in the output trace is false for an attempt that
would need more than 10 ms, and free otherwise. Nothing else of ENCODE takes time (R171; that only attempts and polls take
time is the model's, log entry 8), and the clock counts modulo `2 ^ CLOCKW` (the model's, log entry 4). -/
def Obligations.EncodeTakesAtMostTwoTimeouts : Prop :=
  ∀ (val : Word) (s : State), ∃ (t : State) (okA okB : Bool) (dA dB : Nat), exec (.encode val) s = .next t ∧
    t.out = s.out ++ [{ frame := frameA s.regs, ok := okA }, { frame := frameB s.regs, ok := okB }] ∧
    okA = (decide (Config.txDelay s.draws ≤ 10) && Config.txAccept s.draws) ∧
    okB = (decide (Config.txDelay (s.draws + 1) ≤ 10) && Config.txAccept (s.draws + 1)) ∧
    dA = min (Config.txDelay s.draws) 10 ∧ dB = min (Config.txDelay (s.draws + 1)) 10 ∧ dA + dB ≤ 20 ∧
    t.clock % 2 ^ Config.clockW = (s.clock + dA + dB) % 2 ^ Config.clockW

/-! ## The machine -/

/-- R38, R48: with reset not asserted and no ENCODE under way, a step takes the oldest command word at the port and is
exactly the execution of the command it decodes to, with that word taken from the port. -/
def Obligations.StepExecutesTheDecodedCommand : Prop :=
  ∀ (s : State) (w : CmdWord) (rest : List CmdWord),
    s.rst = false → s.phase = .idle → s.cmds = w :: rest →
      step s = exec (decode w) { s with cmds := rest }

/-- R125: every command completes, and a step of the machine answers a next state from every state, never a fault and
never a refusal. -/
def Obligations.EveryCommandAndEveryStepCompletes : Prop :=
  (∀ (i : Instr) (s : State), ∃ t, exec i s = .next t) ∧ ∀ s : State, ∃ t, step s = .next t

/-- R26: after reset every register holds zero and `phase` is IDLE. -/
def Obligations.ResetLeavesZeroAndIdle : Prop :=
  State.reset.regs = { pvWhole := 0#32, pvFrac := 0#32, bvWhole := 0#32, bvFrac := 0#32, ppMsb := 0#8, ppLsb := 0#8,
                       pcSign := 0#1, pcWhole := 0#32, pcFrac := 0#32, cs := 0#32 } ∧
  State.reset.phase = .idle

/-- R155, R156, R137: while reset is asserted a step takes no command and hands over no frame; it leaves the registers
zero, `phase` IDLE, nothing received, nothing presented, the gate waiting with `anchor` at the clock reading. That the
assertion ends with the step, that presented commands are dropped and that the traces seen so far are kept is the model's
choice (log entry 5), and so is that a frame not yet answered when reset comes stays out of them (log entry 18). -/
def Obligations.ResetInputRestartsTheDevice : Prop :=
  ∀ s : State, s.rst = true → ∃ t, step s = .next t ∧ t.regs = State.reset.regs ∧ t.phase = .idle ∧ t.rst = false ∧
    t.cmds = [] ∧ t.rx = [] ∧ t.loop = .polling ∧ t.anchor = t.clock ∧ t.out = s.out ∧ t.diag = s.diag

/-- R157, R79: an update with operand zero stores zero in every register of its quantity, so the five of them restore the
reset registers from every state. -/
def Obligations.FiveZeroUpdatesRestoreTheRegisters : Prop :=
  ∀ s : State, runList [.updV 0#32, .updVpv 0#32, .updPpv 0#32, .updI 0#32, .updCs 0#32] s
    = .next { s with regs := State.reset.regs }

/-- R161, R48: while an ENCODE is under way a step answers its frame and takes no command: after Frame A comes Frame B,
after Frame B the port is ready again. The registers, the command list and the line buffer keep their values. -/
def Obligations.EncodeUnderWayBlocksCommands : Prop :=
  ∀ s : State, s.rst = false →
    (s.phase = .sendA → ∃ t ok, step s = .next t ∧ t.phase = .sendB ∧ t.regs = s.regs ∧ t.cmds = s.cmds ∧ t.rx = s.rx ∧
      t.out = s.out ++ [{ frame := frameA s.regs, ok := ok }]) ∧
    (s.phase = .sendB → ∃ t ok, step s = .next t ∧ t.phase = .idle ∧ t.regs = s.regs ∧ t.cmds = s.cmds ∧ t.rx = s.rx ∧
      t.out = s.out ++ [{ frame := frameB s.regs, ok := ok }])

/-- R16, R34: with reset not asserted, a step that changes a register has taken the one command that writes its quantity:
UPD_VPV for panel voltage, UPD_V for battery voltage, UPD_PPV for panel power, UPD_I for panel current, UPD_CS for charge
status. -/
def Obligations.EveryRegisterHasOneWriter : Prop :=
  ∀ s t : State, s.rst = false → step s = .next t →
    ((t.regs.pvWhole ≠ s.regs.pvWhole ∨ t.regs.pvFrac ≠ s.regs.pvFrac) →
      s.phase = .idle ∧ ∃ w val, s.cmds.head? = some w ∧ decode w = .updVpv val) ∧
    ((t.regs.bvWhole ≠ s.regs.bvWhole ∨ t.regs.bvFrac ≠ s.regs.bvFrac) →
      s.phase = .idle ∧ ∃ w val, s.cmds.head? = some w ∧ decode w = .updV val) ∧
    ((t.regs.ppMsb ≠ s.regs.ppMsb ∨ t.regs.ppLsb ≠ s.regs.ppLsb) →
      s.phase = .idle ∧ ∃ w val, s.cmds.head? = some w ∧ decode w = .updPpv val) ∧
    ((t.regs.pcSign ≠ s.regs.pcSign ∨ t.regs.pcWhole ≠ s.regs.pcWhole ∨ t.regs.pcFrac ≠ s.regs.pcFrac) →
      s.phase = .idle ∧ ∃ w val, s.cmds.head? = some w ∧ decode w = .updI val) ∧
    (t.regs.cs ≠ s.regs.cs →
      s.phase = .idle ∧ ∃ w val, s.cmds.head? = some w ∧ decode w = .updCs val)

/-- R52: every frame a step hands over is Frame A or Frame B with its constant identifier, flags and length; there is no
third frame. -/
def Obligations.EveryFrameHandedOverIsAOrB : Prop :=
  ∀ s t : State, step s = .next t → ∃ new, t.out = s.out ++ new ∧
    ∀ x ∈ new, x.frame.wf ∧ (x.frame.isA ∨ x.frame.isB)

/-! ## The arithmetic of the store -/

/-- R67, R19, R17: after UPD_V or UPD_VPV the pair holds the raw value with its last decimal digit cut off toward zero:
the hundredths are between -99 and 99, the parts are never of opposite sign, and `1000 * whole + 10 * frac` plus the last
digit is the raw value. -/
def Obligations.VoltagePairIsTheRawValueLessItsLastDigit : Prop :=
  ∀ (val : Word) (s : State),
    (∃ t, exec (.updV val) s = .next t ∧
      -99 ≤ t.regs.bvFrac.toInt ∧ t.regs.bvFrac.toInt ≤ 99 ∧ 0 ≤ t.regs.bvWhole.toInt * t.regs.bvFrac.toInt ∧
      1000 * t.regs.bvWhole.toInt + 10 * t.regs.bvFrac.toInt + Int.tmod val.toInt 10 = val.toInt) ∧
    (∃ t, exec (.updVpv val) s = .next t ∧
      -99 ≤ t.regs.pvFrac.toInt ∧ t.regs.pvFrac.toInt ≤ 99 ∧ 0 ≤ t.regs.pvWhole.toInt * t.regs.pvFrac.toInt ∧
      1000 * t.regs.pvWhole.toInt + 10 * t.regs.pvFrac.toInt + Int.tmod val.toInt 10 = val.toInt)

/-- R19, R68: after UPD_I the sign flag tells a negative raw value, the hundredths are at most 99, and the signed
`1000 * whole + 10 * frac` plus the last digit is the raw value, the most negative operand included. -/
def Obligations.CurrentTripleIsTheRawValueLessItsLastDigit : Prop :=
  ∀ (val : Word) (s : State), ∃ t, exec (.updI val) s = .next t ∧
    (t.regs.pcSign = 1#1 ↔ val.toInt < 0) ∧ t.regs.pcFrac.toNat ≤ 99 ∧ t.regs.pcWhole.toNat ≤ 2147483 ∧
    (1 - 2 * (t.regs.pcSign.toNat : Int)) * (1000 * t.regs.pcWhole.toNat + 10 * t.regs.pcFrac.toNat)
      + Int.tmod val.toInt 10 = val.toInt

/-- R68, R66: the magnitude split of an integer, and its relation to the signed split: for `r >= 0` the same pair, for
`r < 0` the pair with both signs turned. The relation is a consequence that R68 itself marks as derived from R66, not a
definition of either split. -/
def Obligations.MagnitudeSplitAgreesWithSignedSplit : Prop :=
  ∀ r : Int,
    signFlag r = (if r < 0 then 1#1 else 0#1) ∧
    magWhole r = r.natAbs / 1000 ∧ magFrac r = r.natAbs % 1000 / 10 ∧ magFrac r ≤ 99 ∧
    (0 ≤ r → split r = ((magWhole r : Int), (magFrac r : Int))) ∧
    (r < 0 → split r = (-(magWhole r : Int), -(magFrac r : Int)))

/-- R53: a wide register becomes the byte of its integer modulo 256, with no saturation; the sign flag is zero-extended;
-12 gives 0xF4 and -34 gives 0xDE. -/
def Obligations.PayloadBytesWrapModulo256 : Prop :=
  (∀ v : Word, ((byteOf v).toNat : Int) = v.toInt % 256) ∧
  (∀ b : BitVec 1, (flagByte b).toNat = b.toNat) ∧
  byteOf (BitVec.ofInt 32 (-12)) = 0xF4#8 ∧ byteOf (BitVec.ofInt 32 (-34)) = 0xDE#8

/-! ## Laws over sequences of commands -/

/-- R77: executing the same command twice in a row leaves the state the first execution left, for every command but
ENCODE (which hands over its frames again). -/
def Obligations.RepeatingAnUpdateChangesNothing : Prop :=
  ∀ (i : Instr) (s : State), i.isEncode = false → ∃ t, exec i s = .next t ∧ exec i t = .next t

/-- R77: after any sequence of commands the registers of a quantity are a function of the operand of the last update
command for it, and keep their values if there was none. -/
def Obligations.LastUpdateDecidesTheRegisters : Prop :=
  ∀ (is : List Instr) (s : State), ∃ t, runList is s = .next t ∧
    (t.regs.bvWhole, t.regs.bvFrac) = (match lastOperand operandV is with
      | some val => (BitVec.ofInt 32 (Int.tdiv val.toInt 1000), BitVec.ofInt 32 (Int.tdiv (Int.tmod val.toInt 1000) 10))
      | none => (s.regs.bvWhole, s.regs.bvFrac)) ∧
    (t.regs.pvWhole, t.regs.pvFrac) = (match lastOperand operandVpv is with
      | some val => (BitVec.ofInt 32 (Int.tdiv val.toInt 1000), BitVec.ofInt 32 (Int.tdiv (Int.tmod val.toInt 1000) 10))
      | none => (s.regs.pvWhole, s.regs.pvFrac)) ∧
    (t.regs.ppMsb, t.regs.ppLsb) = (match lastOperand operandPpv is with
      | some val => ((val >>> 8).setWidth 8, val.setWidth 8)
      | none => (s.regs.ppMsb, s.regs.ppLsb)) ∧
    (t.regs.pcSign, t.regs.pcWhole, t.regs.pcFrac) = (match lastOperand operandI is with
      | some val => (if val.toInt < 0 then 1#1 else 0#1, BitVec.ofNat 32 (val.toInt.natAbs / 1000),
          BitVec.ofNat 32 (val.toInt.natAbs % 1000 / 10))
      | none => (s.regs.pcSign, s.regs.pcWhole, s.regs.pcFrac)) ∧
    t.regs.cs = (match lastOperand operandCs is with
      | some val => val
      | none => s.regs.cs)

/-- R78: updates of different quantities commute, NOP and RSV7 commute with everything, and of two updates of the same
quantity the later wins. -/
def Obligations.UpdatesOfDifferentQuantitiesCommute : Prop :=
  (∀ (i j : Instr) (s : State), i.quantity ≠ none → j.quantity ≠ none → i.quantity ≠ j.quantity →
    ∃ t, runList [i, j] s = .next t ∧ runList [j, i] s = .next t) ∧
  (∀ (val : Word) (j : Instr) (s : State),
    runList [.nop val, j] s = runList [j, .nop val] s ∧ runList [.rsv7 val, j] s = runList [j, .rsv7 val] s) ∧
  (∀ (i j : Instr) (s : State), i.quantity ≠ none → i.quantity = j.quantity → runList [i, j] s = runList [j] s)

/-- R85, R36, R92: two ENCODEs with no update between them, only NOP and RSV7 if anything, hand over Frame A and Frame B of
the same registers, those of the start state, and leave the registers as they were. -/
def Obligations.ConsecutiveEncodesHandOverEqualFrames : Prop :=
  ∀ (a b : Word) (between : List Instr) (s : State),
    (∀ i ∈ between, i.quantity = none ∧ i.isEncode = false) →
      ∃ t ok1 ok2 ok3 ok4, runList (.encode a :: between ++ [.encode b]) s = .next t ∧ t.regs = s.regs ∧
        t.out = s.out ++ [{ frame := frameA s.regs, ok := ok1 }, { frame := frameB s.regs, ok := ok2 },
                          { frame := frameA s.regs, ok := ok3 }, { frame := frameB s.regs, ok := ok4 }]

/-- R39, R35: the frames of an ENCODE after any list of commands are built from the registers those commands leave, and
come after all the frames handed over before. -/
def Obligations.EncodeSeesEveryEarlierCommand : Prop :=
  ∀ (is : List Instr) (val : Word) (s : State), ∃ u t okA okB,
    runList is s = .next u ∧ runList (is ++ [.encode val]) s = .next t ∧ t.regs = u.regs ∧
    t.out = u.out ++ [{ frame := frameA u.regs, ok := okA }, { frame := frameB u.regs, ok := okB }]

/-- R96: from reset, after any list of commands, the next ENCODE hands over frames in which the bytes of each quantity that
the list never updates are zero, one clause for each of the five, while the others carry their last values (the frames
are built from the registers the list leaves); straight after reset both payloads are all zero. -/
def Obligations.NeverUpdatedQuantitiesAreSentAsZero : Prop :=
  (∀ (is : List Instr) (val : Word), ∃ (u t : State) (okA okB : Bool) (a0 a1 a2 a3 a4 a5 a6 b0 b1 b2 : Byte),
    runList is State.reset = .next u ∧ runList (is ++ [.encode val]) State.reset = .next t ∧
    frameA u.regs = { id := 0x02C#11, ide := 0#1, rtr := 0#1, dlc := 7#4, data := [a0, a1, a2, a3, a4, a5, a6] } ∧
    frameB u.regs = { id := 0x02D#11, ide := 0#1, rtr := 0#1, dlc := 3#4, data := [b0, b1, b2] } ∧
    t.out = u.out ++ [{ frame := frameA u.regs, ok := okA }, { frame := frameB u.regs, ok := okB }] ∧
    ((∀ i ∈ is, operandVpv i = none) → a0 = 0#8 ∧ a1 = 0#8) ∧
    ((∀ i ∈ is, operandPpv i = none) → a2 = 0#8 ∧ a3 = 0#8) ∧
    ((∀ i ∈ is, operandV i = none) → a4 = 0#8 ∧ a5 = 0#8) ∧
    ((∀ i ∈ is, operandCs i = none) → a6 = 0#8) ∧
    ((∀ i ∈ is, operandI i = none) → b0 = 0#8 ∧ b1 = 0#8 ∧ b2 = 0#8)) ∧
  ∀ val : Word, ∃ t okA okB, exec (.encode val) State.reset = .next t ∧
    t.out = [{ frame := { id := 0x02C#11, ide := 0#1, rtr := 0#1, dlc := 7#4,
                          data := [0#8, 0#8, 0#8, 0#8, 0#8, 0#8, 0#8] }, ok := okA },
             { frame := { id := 0x02D#11, ide := 0#1, rtr := 0#1, dlc := 3#4, data := [0#8, 0#8, 0#8] }, ok := okB }]

/-- R97, R80: with every operand inside its no-wrap range, a receiver of the two frames gets each voltage and the current
cut to hundredths toward zero, and the power and the charge status exactly. -/
def Obligations.ReceiverReconstructsValuesInRange : Prop :=
  ∀ (v vpv ppv i cs e : Word) (s : State),
    v.toNat ≤ 255999 → vpv.toNat ≤ 255999 → ppv.toNat ≤ 65535 → cs.toNat ≤ 255 →
    -255999 ≤ i.toInt → i.toInt ≤ 255999 →
    ∃ (t : State) (okA okB : Bool) (a0 a1 a2 a3 a4 a5 a6 b0 b1 b2 : Byte),
      runList [.updV v, .updVpv vpv, .updPpv ppv, .updI i, .updCs cs, .encode e] s = .next t ∧
      t.out = s.out ++
        [{ frame := { id := 0x02C#11, ide := 0#1, rtr := 0#1, dlc := 7#4, data := [a0, a1, a2, a3, a4, a5, a6] },
           ok := okA },
         { frame := { id := 0x02D#11, ide := 0#1, rtr := 0#1, dlc := 3#4, data := [b0, b1, b2] }, ok := okB }] ∧
      1000 * a0.toNat + 10 * a1.toNat = vpv.toNat - vpv.toNat % 10 ∧
      256 * a2.toNat + a3.toNat = ppv.toNat ∧
      1000 * a4.toNat + 10 * a5.toNat = v.toNat - v.toNat % 10 ∧
      a6.toNat = cs.toNat ∧
      (1 - 2 * (b0.toNat : Int)) * (1000 * b1.toNat + 10 * b2.toNat) = i.toInt - Int.tmod i.toInt 10

/-! ## Invariants of the machine -/

/-- R17: the value ranges of the store are kept by every step. -/
def Obligations.StepKeepsTheStoreInRange : Prop :=
  ∀ s t : State, s.regs.InRange → step s = .next t → t.regs.InRange

/-- R39 (c), R89, R24: between commands the output trace is A, B, A, B, ... with both frames of every ENCODE, whatever the
driver answered; every step keeps that. -/
def Obligations.StepKeepsTheFramesPaired : Prop :=
  ∀ s t : State, s.Paired → step s = .next t → t.Paired

/-- R40, R136, R57: the commands the environment issues are (update or NOP)* and then one ENCODE per firing, never the
reserved code; every step keeps that. -/
def Obligations.StepKeepsTheEnvironmentsShape : Prop :=
  ∀ s t : State, s.EnvironmentShaped → step s = .next t → t.EnvironmentShaped

/-- The clock and the anchor stay readings of a counter of `CLOCKW` bits (R139; the counting modulo `2 ^ CLOCKW` is the
model's, log entry 4). -/
def Obligations.StepKeepsClockReadings : Prop :=
  ∀ s t : State, s.ClockReadings → step s = .next t → t.ClockReadings

/-- The four invariants hold at reset. -/
def Obligations.ResetMeetsTheInvariants : Prop :=
  State.reset.regs.InRange ∧ State.reset.Paired ∧ State.reset.EnvironmentShaped ∧ State.reset.ClockReadings

/-! ## The line front end -/

/-- R105: from a well-formed line (no TAB inside a key or a value) exactly its pairs come out, in order, whether or not
one more TAB follows the last value. -/
def Obligations.TokenizerExtractsExactlyThePairs : Prop :=
  ∀ ps : List (Bytes × Bytes), ps ≠ [] → (∀ p ∈ ps, tabByte ∉ p.1 ∧ tabByte ∉ p.2) →
    tokenize (pairsLine ps) = ps ∧ tokenize (pairsLine ps ++ [tabByte]) = ps

/-- R104: the ten rows of the table of edge cases, for all keys and values without a TAB. -/
def Obligations.TokenizerEdgeCases : Prop :=
  ∀ k v k' v' : Bytes, tabByte ∉ k → tabByte ∉ v → tabByte ∉ k' → tabByte ∉ v' →
    tokenize [] = [] ∧
    tokenize k = [] ∧
    tokenize (k ++ tabByte :: v) = [(k, v)] ∧
    tokenize (k ++ tabByte :: (v ++ [tabByte])) = [(k, v)] ∧
    tokenize (k ++ tabByte :: (v ++ tabByte :: (k' ++ tabByte :: v'))) = [(k, v), (k', v')] ∧
    tokenize (k ++ tabByte :: (v ++ tabByte :: k')) = [(k, v)] ∧
    tokenize (k ++ [tabByte]) = [(k, [])] ∧
    tokenize (tabByte :: v) = [([], v)] ∧
    tokenize [tabByte] = [([], [])] ∧
    tokenize (k ++ tabByte :: tabByte :: (k' ++ tabByte :: v')) = [(k, []), (k', v')]

/-- R108, numeric class: the decimal text of every integer in range converts to that integer; leading zeros are allowed
before the digits, with and without a minus sign; `-0` is 0. -/
def Obligations.NumericTokensConvertToTheirNumber : Prop :=
  (∀ z : Int, -2147483648 ≤ z → z ≤ 2147483647 → toInt (intText z) = BitVec.ofInt 32 z) ∧
  (∀ zeros k : Nat, k ≤ 2147483647 → toInt (List.replicate zeros 0x30#8 ++ natText 10 k) = BitVec.ofNat 32 k) ∧
  (∀ zeros k : Nat, k ≤ 2147483648 →
    toInt (0x2D#8 :: (List.replicate zeros 0x30#8 ++ natText 10 k)) = BitVec.ofInt 32 (-k)) ∧
  toInt (ascii ['-', '0']) = 0#32

/-- R108, mixed class: a token with a digit converts by the open parameter `TOINT_MIXED` (log entry 14) when it is not an
optional minus sign followed by digits alone, and when it is but its number is above 2147483647, or below -2147483648
with the sign, leading zeros or not. -/
def Obligations.MixedTokensConvertByTheParameter : Prop :=
  (∀ token : Bytes, (∃ b ∈ token, 0x30 ≤ b.toNat ∧ b.toNat ≤ 0x39) →
    (¬ ∃ digits : Bytes, digits ≠ [] ∧ (∀ d ∈ digits, 0x30 ≤ d.toNat ∧ d.toNat ≤ 0x39) ∧
      (token = digits ∨ token = 0x2D#8 :: digits)) →
    toInt token = Config.toIntMixed token) ∧
  (∀ zeros width k : Nat, k < 10 ^ width → 2147483647 < k →
    toInt (List.replicate zeros 0x30#8 ++ natText width k)
      = Config.toIntMixed (List.replicate zeros 0x30#8 ++ natText width k)) ∧
  (∀ zeros width k : Nat, k < 10 ^ width → 2147483648 < k →
    toInt (0x2D#8 :: (List.replicate zeros 0x30#8 ++ natText width k))
      = Config.toIntMixed (0x2D#8 :: (List.replicate zeros 0x30#8 ++ natText width k)))

/-- R109: a token without a decimal digit converts to zero and its recognised key still issues its update, which makes
the quantity's registers zero. -/
def Obligations.MalformedTokenOverwritesWithZero : Prop :=
  ∀ (token : Bytes) (s : State), (∀ b ∈ token, ¬ (0x30 ≤ b.toNat ∧ b.toNat ≤ 0x39)) →
    toInt token = 0#32 ∧
    exec (pairCommand keyV token) s = .next { s with regs := { s.regs with bvWhole := 0#32, bvFrac := 0#32 } } ∧
    exec (pairCommand keyVpv token) s = .next { s with regs := { s.regs with pvWhole := 0#32, pvFrac := 0#32 } } ∧
    exec (pairCommand keyPpv token) s = .next { s with regs := { s.regs with ppMsb := 0#8, ppLsb := 0#8 } } ∧
    exec (pairCommand keyI token) s
      = .next { s with regs := { s.regs with pcSign := 0#1, pcWhole := 0#32, pcFrac := 0#32 } } ∧
    exec (pairCommand keyCs token) s = .next { s with regs := { s.regs with cs := 0#32 } }

/-- R111, R107, R129: a pair whose key is none of the five, compared byte for byte, changes no state; one that is not among
the twelve diagnostic-only keys either has no diagnostic event. R111 says only that none is required and R129 that the
condition is surfaced to nobody; that the model emits none is its choice (log entry 9). -/
def Obligations.OtherKeysAreIgnored : Prop :=
  ∀ (key value : Bytes) (s : State),
    key ∉ [ascii ['V'], ascii ['V', 'P', 'V'], ascii ['P', 'P', 'V'], ascii ['I'], ascii ['C', 'S']] →
      exec (pairCommand key value) s = .next s ∧ (key ∉ diagKeys → pairDiag key value = [])

/-- R106, R112: a line issues exactly one command per pair, the command of that pair's key and value, in the order of the
pairs, and only updates and NOP. Said of every line through its pairs, and of a well-formed line (no TAB inside a key or
a value) through the pairs it was written from, with or without a trailing TAB. Which command a key issues is said by the
statements of the commands. -/
def Obligations.OneCommandPerPair : Prop :=
  (∀ line : Bytes,
    lineCommands line = (tokenize line).map (fun p => pairCommand p.1 p.2) ∧
    (lineCommands line).length = (tokenize line).length ∧
    ∀ i ∈ lineCommands line, i.isUpdateOrNop = true) ∧
  ∀ ps : List (Bytes × Bytes), ps ≠ [] → (∀ p ∈ ps, tabByte ∉ p.1 ∧ tabByte ∉ p.2) →
    lineCommands (pairsLine ps) = ps.map (fun p => pairCommand p.1 p.2) ∧
    lineCommands (pairsLine ps ++ [tabByte]) = ps.map (fun p => pairCommand p.1 p.2)

/-- R102: draining cuts the buffer at its line feeds: the lines, each followed by its LF, and then the bytes that stay
give the buffer back, and neither a line nor what stays holds an LF. -/
def Obligations.DrainCutsTheBufferAtLineFeeds : Prop :=
  ∀ buffer : Bytes,
    ((drainLines buffer).1.flatMap fun line => line ++ [lfByte]) ++ (drainLines buffer).2 = buffer ∧
    (∀ line ∈ (drainLines buffer).1, lfByte ∉ line) ∧ lfByte ∉ (drainLines buffer).2

/-! ## The period gate -/

/-- R135: while less than 33 ms have passed since the anchor, the control loop with nothing to execute issues no command,
hands over no frame, changes no register and consumes no input. -/
def Obligations.IdleGateIssuesNothing : Prop :=
  ∀ s : State, s.rst = false → s.phase = .idle → s.cmds = [] → s.loop = .polling →
    s.anchor ≤ s.clock → s.clock - s.anchor < 33 →
      ∃ t more, step s = .next t ∧ t.cmds = [] ∧ t.out = s.out ∧ t.diag = s.diag ∧ t.regs = s.regs ∧
        t.anchor = s.anchor ∧ t.loop = .polling ∧ t.rx = s.rx ++ more

/-- R136, R102: once 33 ms have passed since the anchor, the control loop drains every fully available line and presents
their commands in order and then exactly one ENCODE; the bytes after the last LF stay. With every available line within
`LINE_MAX` the lines are exactly those between the line feeds; in place of a longer one `State.drained` has free lines,
which is the model's choice (log entry 6). -/
def Obligations.DueGateDrainsAndIssuesOneEncode : Prop :=
  ∀ s : State, s.rst = false → s.phase = .idle → s.cmds = [] → s.loop = .polling →
    s.anchor ≤ s.clock → 33 ≤ s.clock - s.anchor →
      ∃ t, step s = .next t ∧ t.loop = .firing ∧ t.rx = (drainLines s.rx).2 ∧ t.regs = s.regs ∧ t.out = s.out ∧
        t.cmds.map decode = s.drained.flatMap lineCommands ++ [.encode 0#32] ∧
        ((∀ line ∈ (drainLines s.rx).1, line.length ≤ Config.lineMax) →
          t.cmds.map decode = (drainLines s.rx).1.flatMap lineCommands ++ [.encode 0#32])

/-- R110, R113, R144: the firing of a Due gate appends to the diagnostic trace, when `DIAG_EN` is true, for each drained
line its raw text and then for each pair the decode result of a recognised key or one display event of a diagnostic-only
key (`lineEvents`), and nothing when it is false. With every available line within `LINE_MAX` the lines are exactly those
between the line feeds. The order within a line, the content of a decode result, the silence about other keys and the
free lines in place of a longer one are the model's choices (log entries 9 and 6). -/
def Obligations.FiringEmitsFrontEndDiagnostics : Prop :=
  ∀ s : State, s.rst = false → s.phase = .idle → s.cmds = [] → s.loop = .polling →
    s.anchor ≤ s.clock → 33 ≤ s.clock - s.anchor →
      ∃ t, step s = .next t ∧
        t.diag = s.diag ++ (if Config.diagEn then s.drained.flatMap lineEvents else []) ∧
        ((∀ line ∈ (drainLines s.rx).1, line.length ≤ Config.lineMax) →
          t.diag = s.diag ++ (if Config.diagEn then (drainLines s.rx).1.flatMap lineEvents else []))

/-- R137: when the commands of a firing are executed, the anchor becomes the clock reading at that moment and the gate is
Idle again. -/
def Obligations.FiringEndsByResettingTheAnchor : Prop :=
  ∀ s : State, s.rst = false → s.phase = .idle → s.cmds = [] → s.loop = .firing →
    ∃ t, step s = .next t ∧ t.anchor = t.clock ∧ t.clock = s.clock ∧ t.loop = .polling ∧ t.gateDue = false ∧
      t.regs = s.regs ∧ t.out = s.out ∧ t.cmds = []

/-- R136, R162, R89: a whole firing. From a state in which the gate is Due, the drained lines' commands are executed in
order, then one ENCODE whose two frames are built from the registers they leave, then the anchor is reset: a line that is
fully available when the gate fires is reflected in the frames of that firing, and exactly two attempts are made with or
without input. With every available line within `LINE_MAX` the commands are those of exactly the lines between the line
feeds; in place of a longer line `State.drained` has free lines, which is the model's choice (log entry 6). -/
def Obligations.FiringDrainsThenEncodesThenReanchors : Prop :=
  ∀ s : State, s.rst = false → s.phase = .idle → s.cmds = [] → s.loop = .polling → s.gateDue = true →
    ∃ u t okA okB,
      runList (s.drained.flatMap lineCommands) s = .next u ∧
      steps ((s.drained.flatMap lineCommands).length + 3) s = .next t ∧
      t.regs = u.regs ∧
      t.out = s.out ++ [{ frame := frameA u.regs, ok := okA }, { frame := frameB u.regs, ok := okB }] ∧
      t.rx = (drainLines s.rx).2 ∧ t.cmds = [] ∧ t.phase = .idle ∧ t.loop = .polling ∧ t.anchor = t.clock ∧
      ((∀ line ∈ (drainLines s.rx).1, line.length ≤ Config.lineMax) →
        runList ((drainLines s.rx).1.flatMap lineCommands) s = .next u ∧
        steps (((drainLines s.rx).1.flatMap lineCommands).length + 3) s = .next t)

/-! ## The port level -/

/-- R48: `cmd_ready` is 1 exactly when `phase` is IDLE and reset is not asserted; in a cycle in which it is 0 because an
ENCODE is under way, or in which no command is valid, no register changes, and with the port idle and no command valid
nothing at all changes. -/
def Obligations.PortIsReadyOnlyWhenIdle : Prop :=
  (∀ (rst : Bool) (s : State), (portOut rst s).cmdReady = true ↔ rst = false ∧ s.phase = .idle) ∧
  (∀ (i : PortIn) (s : State), i.rst = false → ((portOut i.rst s).cmdReady = false ∨ i.cmdValid = false) →
    (portCycle i s).regs = s.regs) ∧
  ∀ (i : PortIn) (s : State), i.rst = false → s.phase = .idle → i.cmdValid = false → portCycle i s = s

/-- R142, R48, R155: the frame port. While `phase` is SEND_A or SEND_B and reset is not asserted, Frame A or Frame B of the
registers is at the port; it stays there, with nothing changed, until the driver answers, and the answer appends exactly
that frame to the output trace. With `phase` IDLE or reset asserted no frame is at the port. A cycle with no frame at the
port, or without an answer, appends nothing: that a frame whose attempt a reset cuts off is never appended is the model's
choice (log entry 18). -/
def Obligations.FramePortCarriesTheFrameUnderWay : Prop :=
  ∀ s : State,
    (portOut true s).txFrame = none ∧
    (s.phase = .idle → (portOut false s).txFrame = none) ∧
    (s.phase = .sendA → (portOut false s).txFrame = some
      { id := 0x02C#11, ide := 0#1, rtr := 0#1, dlc := 7#4,
        data := [s.regs.pvWhole.setWidth 8, s.regs.pvFrac.setWidth 8, s.regs.ppMsb, s.regs.ppLsb,
                 s.regs.bvWhole.setWidth 8, s.regs.bvFrac.setWidth 8, s.regs.cs.setWidth 8] }) ∧
    (s.phase = .sendB → (portOut false s).txFrame = some
      { id := 0x02D#11, ide := 0#1, rtr := 0#1, dlc := 3#4,
        data := [s.regs.pcSign.setWidth 8, s.regs.pcWhole.setWidth 8, s.regs.pcFrac.setWidth 8] }) ∧
    (∀ i : PortIn, i.rst = false → s.phase ≠ .idle → i.txDone = false → portCycle i s = s) ∧
    (∀ (i : PortIn) (f : Frame), (portOut i.rst s).txFrame = some f → i.txDone = true →
      (portCycle i s).out = s.out ++ [{ frame := f, ok := i.txOk }] ∧ (portCycle i s).regs = s.regs) ∧
    (∀ i : PortIn, ((portOut i.rst s).txFrame = none ∨ i.txDone = false) → (portCycle i s).out = s.out)

/-- R155, R156, R26: in a cycle with reset asserted the command port is not ready and no frame is at the frame port,
whatever `phase` is, and the cycle leaves the registers zero and `phase` IDLE, with nothing received, nothing presented and
the gate waiting with `anchor` at the clock reading. That the traces stay as they were is the model's choice (log entries
5 and 18), and so is that waiting commands are dropped (log entry 5). -/
def Obligations.PortResetRestartsTheDevice : Prop :=
  ∀ (i : PortIn) (s : State), i.rst = true →
    portOut i.rst s = { cmdReady := false, txFrame := none } ∧
    (portCycle i s).regs = State.reset.regs ∧ (portCycle i s).phase = .idle ∧ (portCycle i s).rst = false ∧
    (portCycle i s).cmds = [] ∧ (portCycle i s).rx = [] ∧ (portCycle i s).loop = .polling ∧
    (portCycle i s).anchor = (portCycle i s).clock ∧ (portCycle i s).out = s.out ∧ (portCycle i s).diag = s.diag

/-- R48: a command other than ENCODE taken at the port completes in that cycle, with the effect `exec` gives it. -/
def Obligations.PortTakesUpdatesInOneCycle : Prop :=
  ∀ (i : PortIn) (s : State), i.rst = false → s.phase = .idle → i.cmdValid = true →
    (decode i.cmdWord).isEncode = false → exec (decode i.cmdWord) s = .next (portCycle i s)

/-- R24, R48, R89, R142: an ENCODE taken at the port, then any number of cycles waiting for the driver, its answer to
Frame A, any number of waiting cycles, its answer to Frame B, whatever is presented at the command port meanwhile: the
registers, the frames, their order and the readiness afterwards are those of the one atomic step of ENCODE, with the
driver's two answers in the trace. That the waiting has no bound is the model's choice (log entry 16). -/
def Obligations.PortLevelEncodeRefinesTheAtomicStep : Prop :=
  ∀ (s : State) (take doneA doneB : PortIn) (waitA waitB : List PortIn),
    s.phase = .idle → take.rst = false → take.cmdValid = true → (decode take.cmdWord).isEncode = true →
    doneA.rst = false → doneA.txDone = true → doneB.rst = false → doneB.txDone = true →
    (∀ i ∈ waitA, i.rst = false ∧ i.txDone = false) → (∀ i ∈ waitB, i.rst = false ∧ i.txDone = false) →
      ∃ u, exec (decode take.cmdWord) s = .next u ∧
        let t := portRun s (take :: waitA ++ doneA :: waitB ++ [doneB])
        t.regs = u.regs ∧ t.phase = .idle ∧ u.phase = .idle ∧
        t.out = s.out ++ [{ frame := frameA s.regs, ok := doneA.txOk }, { frame := frameB s.regs, ok := doneB.txOk }] ∧
        t.out.map Attempt.frame = u.out.map Attempt.frame ∧ t.cmds = u.cmds

/-! ## What nothing can learn -/

/-- R144: nothing reads the diagnostic channel back: from two states that differ only in what the channel has carried, a
step leads to states that differ only in it. -/
def Obligations.DiagnosticsInfluenceNothing : Prop :=
  ∀ (s : State) (d : List DiagEvent), ∃ t d', step s = .next t ∧ step { s with diag := d } = .next { t with diag := d' }

/-- R91, R144, R113: a step appends to the diagnostic trace exactly one event per transmit attempt of that step, with its
frame and its answer and in the order of the attempts, beside events of the front end; when `DIAG_EN` is false it appends
nothing at all. -/
def Obligations.EveryAttemptIsReportedOnce : Prop :=
  ∀ s t : State, step s = .next t → ∃ attempts events,
    t.out = s.out ++ attempts ∧ t.diag = s.diag ++ (if Config.diagEn then events else []) ∧
    events.filterMap (DiagEvent.reported s.regs) = attempts

/-- R89, R92, R128: the driver's answers change no register and no frame: whatever draws a command's attempts take their
answers from, the registers, the frames handed over, the port and the control loop are the same. -/
def Obligations.DriverAnswersChangeNoFrame : Prop :=
  ∀ (i : Instr) (s : State) (n : Nat), ∃ t u, exec i s = .next t ∧ exec i { s with draws := n } = .next u ∧
    u.regs = t.regs ∧ u.phase = t.phase ∧ u.cmds = t.cmds ∧ u.rx = t.rx ∧ u.loop = t.loop ∧ u.anchor = t.anchor ∧
    u.out.map Attempt.frame = t.out.map Attempt.frame
end

