-- ==== Sys2Proof/Laws/State.lean ====
section
/-! SUPPORT. One lemma per field per update, true by definition, so that no proof unfolds a record update. -/

namespace Sys2Proof.Machine

@[simp] theorem Telemetry.putBatteryVoltage_pvWhole (t : Telemetry) (w : Word) (f : Word) : (t.putBatteryVoltage w f).pvWhole = t.pvWhole := rfl
@[simp] theorem Telemetry.putBatteryVoltage_pvFrac (t : Telemetry) (w : Word) (f : Word) : (t.putBatteryVoltage w f).pvFrac = t.pvFrac := rfl
@[simp] theorem Telemetry.putBatteryVoltage_bvWhole (t : Telemetry) (w : Word) (f : Word) : (t.putBatteryVoltage w f).bvWhole = w := rfl
@[simp] theorem Telemetry.putBatteryVoltage_bvFrac (t : Telemetry) (w : Word) (f : Word) : (t.putBatteryVoltage w f).bvFrac = f := rfl
@[simp] theorem Telemetry.putBatteryVoltage_ppMsb (t : Telemetry) (w : Word) (f : Word) : (t.putBatteryVoltage w f).ppMsb = t.ppMsb := rfl
@[simp] theorem Telemetry.putBatteryVoltage_ppLsb (t : Telemetry) (w : Word) (f : Word) : (t.putBatteryVoltage w f).ppLsb = t.ppLsb := rfl
@[simp] theorem Telemetry.putBatteryVoltage_pcSign (t : Telemetry) (w : Word) (f : Word) : (t.putBatteryVoltage w f).pcSign = t.pcSign := rfl
@[simp] theorem Telemetry.putBatteryVoltage_pcWhole (t : Telemetry) (w : Word) (f : Word) : (t.putBatteryVoltage w f).pcWhole = t.pcWhole := rfl
@[simp] theorem Telemetry.putBatteryVoltage_pcFrac (t : Telemetry) (w : Word) (f : Word) : (t.putBatteryVoltage w f).pcFrac = t.pcFrac := rfl
@[simp] theorem Telemetry.putBatteryVoltage_cs (t : Telemetry) (w : Word) (f : Word) : (t.putBatteryVoltage w f).cs = t.cs := rfl

@[simp] theorem Telemetry.putPanelVoltage_pvWhole (t : Telemetry) (w : Word) (f : Word) : (t.putPanelVoltage w f).pvWhole = w := rfl
@[simp] theorem Telemetry.putPanelVoltage_pvFrac (t : Telemetry) (w : Word) (f : Word) : (t.putPanelVoltage w f).pvFrac = f := rfl
@[simp] theorem Telemetry.putPanelVoltage_bvWhole (t : Telemetry) (w : Word) (f : Word) : (t.putPanelVoltage w f).bvWhole = t.bvWhole := rfl
@[simp] theorem Telemetry.putPanelVoltage_bvFrac (t : Telemetry) (w : Word) (f : Word) : (t.putPanelVoltage w f).bvFrac = t.bvFrac := rfl
@[simp] theorem Telemetry.putPanelVoltage_ppMsb (t : Telemetry) (w : Word) (f : Word) : (t.putPanelVoltage w f).ppMsb = t.ppMsb := rfl
@[simp] theorem Telemetry.putPanelVoltage_ppLsb (t : Telemetry) (w : Word) (f : Word) : (t.putPanelVoltage w f).ppLsb = t.ppLsb := rfl
@[simp] theorem Telemetry.putPanelVoltage_pcSign (t : Telemetry) (w : Word) (f : Word) : (t.putPanelVoltage w f).pcSign = t.pcSign := rfl
@[simp] theorem Telemetry.putPanelVoltage_pcWhole (t : Telemetry) (w : Word) (f : Word) : (t.putPanelVoltage w f).pcWhole = t.pcWhole := rfl
@[simp] theorem Telemetry.putPanelVoltage_pcFrac (t : Telemetry) (w : Word) (f : Word) : (t.putPanelVoltage w f).pcFrac = t.pcFrac := rfl
@[simp] theorem Telemetry.putPanelVoltage_cs (t : Telemetry) (w : Word) (f : Word) : (t.putPanelVoltage w f).cs = t.cs := rfl

@[simp] theorem Telemetry.putPanelPower_pvWhole (t : Telemetry) (h : Byte) (l : Byte) : (t.putPanelPower h l).pvWhole = t.pvWhole := rfl
@[simp] theorem Telemetry.putPanelPower_pvFrac (t : Telemetry) (h : Byte) (l : Byte) : (t.putPanelPower h l).pvFrac = t.pvFrac := rfl
@[simp] theorem Telemetry.putPanelPower_bvWhole (t : Telemetry) (h : Byte) (l : Byte) : (t.putPanelPower h l).bvWhole = t.bvWhole := rfl
@[simp] theorem Telemetry.putPanelPower_bvFrac (t : Telemetry) (h : Byte) (l : Byte) : (t.putPanelPower h l).bvFrac = t.bvFrac := rfl
@[simp] theorem Telemetry.putPanelPower_ppMsb (t : Telemetry) (h : Byte) (l : Byte) : (t.putPanelPower h l).ppMsb = h := rfl
@[simp] theorem Telemetry.putPanelPower_ppLsb (t : Telemetry) (h : Byte) (l : Byte) : (t.putPanelPower h l).ppLsb = l := rfl
@[simp] theorem Telemetry.putPanelPower_pcSign (t : Telemetry) (h : Byte) (l : Byte) : (t.putPanelPower h l).pcSign = t.pcSign := rfl
@[simp] theorem Telemetry.putPanelPower_pcWhole (t : Telemetry) (h : Byte) (l : Byte) : (t.putPanelPower h l).pcWhole = t.pcWhole := rfl
@[simp] theorem Telemetry.putPanelPower_pcFrac (t : Telemetry) (h : Byte) (l : Byte) : (t.putPanelPower h l).pcFrac = t.pcFrac := rfl
@[simp] theorem Telemetry.putPanelPower_cs (t : Telemetry) (h : Byte) (l : Byte) : (t.putPanelPower h l).cs = t.cs := rfl

@[simp] theorem Telemetry.putPanelCurrent_pvWhole (t : Telemetry) (g : BitVec 1) (w : Word) (f : Word) : (t.putPanelCurrent g w f).pvWhole = t.pvWhole := rfl
@[simp] theorem Telemetry.putPanelCurrent_pvFrac (t : Telemetry) (g : BitVec 1) (w : Word) (f : Word) : (t.putPanelCurrent g w f).pvFrac = t.pvFrac := rfl
@[simp] theorem Telemetry.putPanelCurrent_bvWhole (t : Telemetry) (g : BitVec 1) (w : Word) (f : Word) : (t.putPanelCurrent g w f).bvWhole = t.bvWhole := rfl
@[simp] theorem Telemetry.putPanelCurrent_bvFrac (t : Telemetry) (g : BitVec 1) (w : Word) (f : Word) : (t.putPanelCurrent g w f).bvFrac = t.bvFrac := rfl
@[simp] theorem Telemetry.putPanelCurrent_ppMsb (t : Telemetry) (g : BitVec 1) (w : Word) (f : Word) : (t.putPanelCurrent g w f).ppMsb = t.ppMsb := rfl
@[simp] theorem Telemetry.putPanelCurrent_ppLsb (t : Telemetry) (g : BitVec 1) (w : Word) (f : Word) : (t.putPanelCurrent g w f).ppLsb = t.ppLsb := rfl
@[simp] theorem Telemetry.putPanelCurrent_pcSign (t : Telemetry) (g : BitVec 1) (w : Word) (f : Word) : (t.putPanelCurrent g w f).pcSign = g := rfl
@[simp] theorem Telemetry.putPanelCurrent_pcWhole (t : Telemetry) (g : BitVec 1) (w : Word) (f : Word) : (t.putPanelCurrent g w f).pcWhole = w := rfl
@[simp] theorem Telemetry.putPanelCurrent_pcFrac (t : Telemetry) (g : BitVec 1) (w : Word) (f : Word) : (t.putPanelCurrent g w f).pcFrac = f := rfl
@[simp] theorem Telemetry.putPanelCurrent_cs (t : Telemetry) (g : BitVec 1) (w : Word) (f : Word) : (t.putPanelCurrent g w f).cs = t.cs := rfl

@[simp] theorem Telemetry.putChargeStatus_pvWhole (t : Telemetry) (c : Word) : (t.putChargeStatus c).pvWhole = t.pvWhole := rfl
@[simp] theorem Telemetry.putChargeStatus_pvFrac (t : Telemetry) (c : Word) : (t.putChargeStatus c).pvFrac = t.pvFrac := rfl
@[simp] theorem Telemetry.putChargeStatus_bvWhole (t : Telemetry) (c : Word) : (t.putChargeStatus c).bvWhole = t.bvWhole := rfl
@[simp] theorem Telemetry.putChargeStatus_bvFrac (t : Telemetry) (c : Word) : (t.putChargeStatus c).bvFrac = t.bvFrac := rfl
@[simp] theorem Telemetry.putChargeStatus_ppMsb (t : Telemetry) (c : Word) : (t.putChargeStatus c).ppMsb = t.ppMsb := rfl
@[simp] theorem Telemetry.putChargeStatus_ppLsb (t : Telemetry) (c : Word) : (t.putChargeStatus c).ppLsb = t.ppLsb := rfl
@[simp] theorem Telemetry.putChargeStatus_pcSign (t : Telemetry) (c : Word) : (t.putChargeStatus c).pcSign = t.pcSign := rfl
@[simp] theorem Telemetry.putChargeStatus_pcWhole (t : Telemetry) (c : Word) : (t.putChargeStatus c).pcWhole = t.pcWhole := rfl
@[simp] theorem Telemetry.putChargeStatus_pcFrac (t : Telemetry) (c : Word) : (t.putChargeStatus c).pcFrac = t.pcFrac := rfl
@[simp] theorem Telemetry.putChargeStatus_cs (t : Telemetry) (c : Word) : (t.putChargeStatus c).cs = c := rfl

@[simp] theorem State.setRegs_regs (s : State) (t : Telemetry) :
    (s.setRegs t).regs = t := rfl
@[simp] theorem State.setRegs_phase (s : State) (t : Telemetry) :
    (s.setRegs t).phase = s.phase := rfl
@[simp] theorem State.setRegs_rst (s : State) (t : Telemetry) :
    (s.setRegs t).rst = s.rst := rfl
@[simp] theorem State.setRegs_cmds (s : State) (t : Telemetry) :
    (s.setRegs t).cmds = s.cmds := rfl
@[simp] theorem State.setRegs_out (s : State) (t : Telemetry) :
    (s.setRegs t).out = s.out := rfl
@[simp] theorem State.setRegs_diag (s : State) (t : Telemetry) :
    (s.setRegs t).diag = s.diag := rfl
@[simp] theorem State.setRegs_rx (s : State) (t : Telemetry) :
    (s.setRegs t).rx = s.rx := rfl
@[simp] theorem State.setRegs_clock (s : State) (t : Telemetry) :
    (s.setRegs t).clock = s.clock := rfl
@[simp] theorem State.setRegs_anchor (s : State) (t : Telemetry) :
    (s.setRegs t).anchor = s.anchor := rfl
@[simp] theorem State.setRegs_loop (s : State) (t : Telemetry) :
    (s.setRegs t).loop = s.loop := rfl
@[simp] theorem State.setRegs_draws (s : State) (t : Telemetry) :
    (s.setRegs t).draws = s.draws := rfl

@[simp] theorem State.answered_regs (s : State) (tag : FrameTag) (ok : Bool) :
    (s.answered tag ok).regs = s.regs := rfl
@[simp] theorem State.answered_phase (s : State) (tag : FrameTag) (ok : Bool) :
    (s.answered tag ok).phase = s.phase := rfl
@[simp] theorem State.answered_rst (s : State) (tag : FrameTag) (ok : Bool) :
    (s.answered tag ok).rst = s.rst := rfl
@[simp] theorem State.answered_cmds (s : State) (tag : FrameTag) (ok : Bool) :
    (s.answered tag ok).cmds = s.cmds := rfl
@[simp] theorem State.answered_out (s : State) (tag : FrameTag) (ok : Bool) :
    (s.answered tag ok).out = s.out ++ [{ frame := frameOf tag s.regs, ok := ok }] := rfl
@[simp] theorem State.answered_diag (s : State) (tag : FrameTag) (ok : Bool) :
    (s.answered tag ok).diag = s.diag ++ diagOut [.txResult tag ok] := rfl
@[simp] theorem State.answered_rx (s : State) (tag : FrameTag) (ok : Bool) :
    (s.answered tag ok).rx = s.rx := rfl
@[simp] theorem State.answered_clock (s : State) (tag : FrameTag) (ok : Bool) :
    (s.answered tag ok).clock = s.clock := rfl
@[simp] theorem State.answered_anchor (s : State) (tag : FrameTag) (ok : Bool) :
    (s.answered tag ok).anchor = s.anchor := rfl
@[simp] theorem State.answered_loop (s : State) (tag : FrameTag) (ok : Bool) :
    (s.answered tag ok).loop = s.loop := rfl
@[simp] theorem State.answered_draws (s : State) (tag : FrameTag) (ok : Bool) :
    (s.answered tag ok).draws = s.draws := rfl

@[simp] theorem State.attempt_regs (s : State) (tag : FrameTag) :
    (s.attempt tag).regs = s.regs := rfl
@[simp] theorem State.attempt_phase (s : State) (tag : FrameTag) :
    (s.attempt tag).phase = s.phase := rfl
@[simp] theorem State.attempt_rst (s : State) (tag : FrameTag) :
    (s.attempt tag).rst = s.rst := rfl
@[simp] theorem State.attempt_cmds (s : State) (tag : FrameTag) :
    (s.attempt tag).cmds = s.cmds := rfl
@[simp] theorem State.attempt_out (s : State) (tag : FrameTag) :
    (s.attempt tag).out = s.out ++ [{ frame := frameOf tag s.regs, ok := txAnswer s.draws }] := rfl
@[simp] theorem State.attempt_diag (s : State) (tag : FrameTag) :
    (s.attempt tag).diag = s.diag ++ diagOut [.txResult tag (txAnswer s.draws)] := rfl
@[simp] theorem State.attempt_rx (s : State) (tag : FrameTag) :
    (s.attempt tag).rx = s.rx := rfl
@[simp] theorem State.attempt_clock (s : State) (tag : FrameTag) :
    (s.attempt tag).clock = clockAfter s.clock (txTime s.draws) := rfl
@[simp] theorem State.attempt_anchor (s : State) (tag : FrameTag) :
    (s.attempt tag).anchor = s.anchor := rfl
@[simp] theorem State.attempt_loop (s : State) (tag : FrameTag) :
    (s.attempt tag).loop = s.loop := rfl
@[simp] theorem State.attempt_draws (s : State) (tag : FrameTag) :
    (s.attempt tag).draws = s.draws + 1 := rfl

@[simp] theorem State.takeEncode_regs (s : State) :
    (s.takeEncode).regs = s.regs := rfl
@[simp] theorem State.takeEncode_phase (s : State) :
    (s.takeEncode).phase = .sendA := rfl
@[simp] theorem State.takeEncode_rst (s : State) :
    (s.takeEncode).rst = s.rst := rfl
@[simp] theorem State.takeEncode_cmds (s : State) :
    (s.takeEncode).cmds = s.cmds := rfl
@[simp] theorem State.takeEncode_out (s : State) :
    (s.takeEncode).out = s.out := rfl
@[simp] theorem State.takeEncode_diag (s : State) :
    (s.takeEncode).diag = s.diag := rfl
@[simp] theorem State.takeEncode_rx (s : State) :
    (s.takeEncode).rx = s.rx := rfl
@[simp] theorem State.takeEncode_clock (s : State) :
    (s.takeEncode).clock = s.clock := rfl
@[simp] theorem State.takeEncode_anchor (s : State) :
    (s.takeEncode).anchor = s.anchor := rfl
@[simp] theorem State.takeEncode_loop (s : State) :
    (s.takeEncode).loop = s.loop := rfl
@[simp] theorem State.takeEncode_draws (s : State) :
    (s.takeEncode).draws = s.draws := rfl

@[simp] theorem State.answerA_regs (s : State) :
    (s.answerA).regs = s.regs := rfl
@[simp] theorem State.answerA_phase (s : State) :
    (s.answerA).phase = .sendB := rfl
@[simp] theorem State.answerA_rst (s : State) :
    (s.answerA).rst = s.rst := rfl
@[simp] theorem State.answerA_cmds (s : State) :
    (s.answerA).cmds = s.cmds := rfl
@[simp] theorem State.answerA_out (s : State) :
    (s.answerA).out = s.out ++ [{ frame := frameA s.regs, ok := txAnswer s.draws }] := rfl
@[simp] theorem State.answerA_diag (s : State) :
    (s.answerA).diag = s.diag ++ diagOut [.txResult .a (txAnswer s.draws)] := rfl
@[simp] theorem State.answerA_rx (s : State) :
    (s.answerA).rx = s.rx := rfl
@[simp] theorem State.answerA_clock (s : State) :
    (s.answerA).clock = clockAfter s.clock (txTime s.draws) := rfl
@[simp] theorem State.answerA_anchor (s : State) :
    (s.answerA).anchor = s.anchor := rfl
@[simp] theorem State.answerA_loop (s : State) :
    (s.answerA).loop = s.loop := rfl
@[simp] theorem State.answerA_draws (s : State) :
    (s.answerA).draws = s.draws + 1 := rfl

@[simp] theorem State.answerB_regs (s : State) :
    (s.answerB).regs = s.regs := rfl
@[simp] theorem State.answerB_phase (s : State) :
    (s.answerB).phase = .idle := rfl
@[simp] theorem State.answerB_rst (s : State) :
    (s.answerB).rst = s.rst := rfl
@[simp] theorem State.answerB_cmds (s : State) :
    (s.answerB).cmds = s.cmds := rfl
@[simp] theorem State.answerB_out (s : State) :
    (s.answerB).out = s.out ++ [{ frame := frameB s.regs, ok := txAnswer s.draws }] := rfl
@[simp] theorem State.answerB_diag (s : State) :
    (s.answerB).diag = s.diag ++ diagOut [.txResult .b (txAnswer s.draws)] := rfl
@[simp] theorem State.answerB_rx (s : State) :
    (s.answerB).rx = s.rx := rfl
@[simp] theorem State.answerB_clock (s : State) :
    (s.answerB).clock = clockAfter s.clock (txTime s.draws) := rfl
@[simp] theorem State.answerB_anchor (s : State) :
    (s.answerB).anchor = s.anchor := rfl
@[simp] theorem State.answerB_loop (s : State) :
    (s.answerB).loop = s.loop := rfl
@[simp] theorem State.answerB_draws (s : State) :
    (s.answerB).draws = s.draws + 1 := rfl

@[simp] theorem State.restart_regs (s : State) :
    (s.restart).regs = Telemetry.zero := rfl
@[simp] theorem State.restart_phase (s : State) :
    (s.restart).phase = .idle := rfl
@[simp] theorem State.restart_rst (s : State) :
    (s.restart).rst = false := rfl
@[simp] theorem State.restart_cmds (s : State) :
    (s.restart).cmds = [] := rfl
@[simp] theorem State.restart_out (s : State) :
    (s.restart).out = s.out := rfl
@[simp] theorem State.restart_diag (s : State) :
    (s.restart).diag = s.diag := rfl
@[simp] theorem State.restart_rx (s : State) :
    (s.restart).rx = [] := rfl
@[simp] theorem State.restart_clock (s : State) :
    (s.restart).clock = Config.clockAtReset s.draws % 2 ^ Config.clockW := rfl
@[simp] theorem State.restart_anchor (s : State) :
    (s.restart).anchor = Config.clockAtReset s.draws % 2 ^ Config.clockW := rfl
@[simp] theorem State.restart_loop (s : State) :
    (s.restart).loop = .polling := rfl
@[simp] theorem State.restart_draws (s : State) :
    (s.restart).draws = s.draws + 1 := rfl

@[simp] theorem State.fire_regs (s : State) :
    (s.fire).regs = s.regs := rfl
@[simp] theorem State.fire_phase (s : State) :
    (s.fire).phase = s.phase := rfl
@[simp] theorem State.fire_rst (s : State) :
    (s.fire).rst = s.rst := rfl
@[simp] theorem State.fire_cmds (s : State) :
    (s.fire).cmds = s.cmds ++ s.firingCommands.map encode := rfl
@[simp] theorem State.fire_out (s : State) :
    (s.fire).out = s.out := rfl
@[simp] theorem State.fire_diag (s : State) :
    (s.fire).diag = s.diag ++ diagOut (s.drained.flatMap lineDiag) := rfl
@[simp] theorem State.fire_rx (s : State) :
    (s.fire).rx = (drainLines s.rx).2 := rfl
@[simp] theorem State.fire_clock (s : State) :
    (s.fire).clock = s.clock := rfl
@[simp] theorem State.fire_anchor (s : State) :
    (s.fire).anchor = s.anchor := rfl
@[simp] theorem State.fire_loop (s : State) :
    (s.fire).loop = .firing := rfl
@[simp] theorem State.fire_draws (s : State) :
    (s.fire).draws = s.draws + 1 := rfl

@[simp] theorem State.reanchor_regs (s : State) :
    (s.reanchor).regs = s.regs := rfl
@[simp] theorem State.reanchor_phase (s : State) :
    (s.reanchor).phase = s.phase := rfl
@[simp] theorem State.reanchor_rst (s : State) :
    (s.reanchor).rst = s.rst := rfl
@[simp] theorem State.reanchor_cmds (s : State) :
    (s.reanchor).cmds = s.cmds := rfl
@[simp] theorem State.reanchor_out (s : State) :
    (s.reanchor).out = s.out := rfl
@[simp] theorem State.reanchor_diag (s : State) :
    (s.reanchor).diag = s.diag := rfl
@[simp] theorem State.reanchor_rx (s : State) :
    (s.reanchor).rx = s.rx := rfl
@[simp] theorem State.reanchor_clock (s : State) :
    (s.reanchor).clock = s.clock := rfl
@[simp] theorem State.reanchor_anchor (s : State) :
    (s.reanchor).anchor = s.clock := rfl
@[simp] theorem State.reanchor_loop (s : State) :
    (s.reanchor).loop = .polling := rfl
@[simp] theorem State.reanchor_draws (s : State) :
    (s.reanchor).draws = s.draws := rfl

@[simp] theorem State.poll_regs (s : State) :
    (s.poll).regs = s.regs := rfl
@[simp] theorem State.poll_phase (s : State) :
    (s.poll).phase = s.phase := rfl
@[simp] theorem State.poll_rst (s : State) :
    (s.poll).rst = s.rst := rfl
@[simp] theorem State.poll_cmds (s : State) :
    (s.poll).cmds = s.cmds := rfl
@[simp] theorem State.poll_out (s : State) :
    (s.poll).out = s.out := rfl
@[simp] theorem State.poll_diag (s : State) :
    (s.poll).diag = s.diag := rfl
@[simp] theorem State.poll_rx (s : State) :
    (s.poll).rx = s.rx ++ Config.serialIn s.draws := rfl
@[simp] theorem State.poll_clock (s : State) :
    (s.poll).clock = clockAfter s.clock (Config.pollTime s.draws) := rfl
@[simp] theorem State.poll_anchor (s : State) :
    (s.poll).anchor = s.anchor := rfl
@[simp] theorem State.poll_loop (s : State) :
    (s.poll).loop = s.loop := rfl
@[simp] theorem State.poll_draws (s : State) :
    (s.poll).draws = s.draws + 1 := rfl

@[simp] theorem State.reset_regs : State.reset.regs = Telemetry.zero := rfl
@[simp] theorem State.reset_phase : State.reset.phase = .idle := rfl
@[simp] theorem State.reset_rst : State.reset.rst = false := rfl
@[simp] theorem State.reset_cmds : State.reset.cmds = [] := rfl
@[simp] theorem State.reset_out : State.reset.out = [] := rfl
@[simp] theorem State.reset_diag : State.reset.diag = [] := rfl
@[simp] theorem State.reset_rx : State.reset.rx = [] := rfl
@[simp] theorem State.reset_clock : State.reset.clock = 0 := rfl
@[simp] theorem State.reset_anchor : State.reset.anchor = 0 := rfl
@[simp] theorem State.reset_loop : State.reset.loop = .polling := rfl
@[simp] theorem State.reset_draws : State.reset.draws = 0 := rfl

end Sys2Proof.Machine
end

