-- ==== Sys2Proof/Laws/Ops.lean ====
section
/-! SUPPORT. What each shared operation does, said once: the arithmetic of the splits, two's complement, the driver, the
clock, the paired trace. -/

namespace Sys2Proof.Machine

/-! Truncating division (R6). -/

theorem tdiv_eq_ite (a : Int) (k : Nat) :
    tdiv a k = if 0 ≤ a then a / k else -(-a / k) := by
  unfold tdiv
  split
  · exact Int.tdiv_eq_ediv_of_nonneg ‹_›
  · have h : Int.tdiv (-a) k = -a / k := Int.tdiv_eq_ediv_of_nonneg (by omega)
    rw [Int.neg_tdiv] at h
    omega

theorem tmod_eq (a b : Int) : tmod a b = Int.tmod a b := by
  unfold tmod tdiv
  have := Int.mul_tdiv_add_tmod a b
  omega

theorem split_eq (r : Int) :
    split r = if 0 ≤ r then (r / 1000, r % 1000 / 10) else (-(-r / 1000), -(-r % 1000 / 10)) := by
  have h10 : Config.fracUnit = 10 := rfl
  have hw := tdiv_eq_ite r 1000
  unfold split
  rw [h10, tdiv_eq_ite _ 10]
  unfold tmod
  simp only [Config.scale, Nat.cast_ofNat] at *
  rw [hw]
  split <;> (refine Prod.ext ?_ ?_) <;> dsimp only <;> (try split) <;> omega

theorem magWhole_eq (r : Int) : (magWhole r : Int) = if 0 ≤ r then r / 1000 else -r / 1000 := by
  unfold magWhole magnitude Config.scale
  split <;> omega

theorem magFrac_eq (r : Int) : (magFrac r : Int) = if 0 ≤ r then r % 1000 / 10 else -r % 1000 / 10 := by
  have h10 : Config.fracUnit = 10 := rfl
  unfold magFrac magnitude
  rw [h10]
  unfold Config.scale
  split <;> omega

/-! Two's complement (R5). -/

theorem rawSigned_bounds (val : Word) : -2147483648 ≤ rawSigned val ∧ rawSigned val ≤ 2147483647 := by
  have h1 := BitVec.le_toInt val
  have h2 := @BitVec.toInt_lt 32 val
  unfold rawSigned
  omega

theorem toInt_tcWord {i : Int} (hl : -2147483648 ≤ i) (hu : i ≤ 2147483647) : (tcWord i).toInt = i := by
  unfold tcWord
  rw [BitVec.toInt_ofInt]
  exact Int.bmod_eq_of_le (by omega) (by omega)

theorem toNat_tcWord {n : Nat} (h : n < 4294967296) : (tcWord n).toNat = n := by
  unfold tcWord
  rw [BitVec.toNat_ofInt]
  omega

theorem split_bounds (val : Word) :
    (-2147483 ≤ (split (rawSigned val)).1 ∧ (split (rawSigned val)).1 ≤ 2147483) ∧
    (-99 ≤ (split (rawSigned val)).2 ∧ (split (rawSigned val)).2 ≤ 99) := by
  have h := rawSigned_bounds val
  rw [split_eq]
  split <;> dsimp only <;> omega

theorem magWhole_le (val : Word) : magWhole (rawSigned val) ≤ 2147483 := by
  have h := rawSigned_bounds val
  have e := magWhole_eq (rawSigned val)
  split at e <;> omega

theorem magFrac_le (r : Int) : magFrac r ≤ 99 := by
  have e := magFrac_eq r
  split at e <;> omega

/-! The Transmit Driver and the clock. -/

theorem txTime_le (n : Nat) : txTime n ≤ 10 := Nat.min_le_right _ _

theorem clockAfter_lt (t d : Nat) : clockAfter t d < 2 ^ Config.clockW :=
  Nat.mod_lt _ (Nat.two_pow_pos _)

theorem diagOut_append (xs ys : List DiagEvent) : diagOut (xs ++ ys) = diagOut xs ++ diagOut ys := by
  unfold diagOut
  split <;> simp

/-! The output trace. -/

theorem framesPaired_append_pair {l : List Attempt} {x y : Attempt}
    (h : framesPaired l) (hx : x.frame.isA) (hy : y.frame.isB) : framesPaired (l ++ [x, y]) := by
  induction l using framesPaired.induct with
  | case1 => exact ⟨hx, hy, trivial⟩
  | case2 => exact h.elim
  | case3 a b rest ih => exact ⟨h.1, h.2.1, ih h.2.2⟩

theorem frameA_isA (t : Telemetry) : (frameA t).isA := ⟨rfl, rfl, rfl, rfl, rfl⟩

theorem frameB_isB (t : Telemetry) : (frameB t).isB := ⟨rfl, rfl, rfl, rfl, rfl⟩

end Sys2Proof.Machine
end

