-- ==== Sys2Proof/Laws/PerInstr.lean ====
section
/-! SUPPORT. A family of facts about every command as syntax: where its opcode and its operand stand in its word
(30_encoding.md R45, R56), and that it is well formed (R58). One lemma per constructor. -/

namespace Sys2Proof.Laws

theorem append_toNat (op : BitVec 3) (val : Word) :
    ((op ++ val : CmdWord)).toNat = 2 ^ 32 * op.toNat + val.toNat := by
  rw [BitVec.toNat_append, Nat.shiftLeft_eq, Nat.mul_comm, ← Nat.two_pow_add_eq_or_of_lt val.isLt]

/-- The opcode field of a word put together from an opcode and an operand. -/
theorem opField_append (op : BitVec 3) (val : Word) : opField (op ++ val) = op := by
  apply BitVec.eq_of_toNat_eq
  unfold opField
  rw [BitVec.extractLsb'_toNat, Nat.shiftRight_eq_div_pow, append_toNat]
  have h1 := op.isLt
  have h2 := val.isLt
  omega

/-- The operand field of a word put together from an opcode and an operand. -/
theorem valField_append (op : BitVec 3) (val : Word) : valField (op ++ val) = val := by
  apply BitVec.eq_of_toNat_eq
  unfold valField
  rw [BitVec.extractLsb'_toNat, Nat.shiftRight_zero, append_toNat]
  have h2 := val.isLt
  omega

/-- The opcode stands in bits 34 to 32 of the word, the operand in bits 31 to 0, and the command is well formed. -/
def Fields.Statement (i : Instr) : Prop :=
  opField (encode i) = i.op ∧ valField (encode i) = i.val ∧ i.wellFormed = true

theorem Fields.nop (val : Word) : Fields.Statement (.nop val) :=
  ⟨opField_append _ _, valField_append _ _, rfl⟩

theorem Fields.updV (val : Word) : Fields.Statement (.updV val) :=
  ⟨opField_append _ _, valField_append _ _, rfl⟩

theorem Fields.updVpv (val : Word) : Fields.Statement (.updVpv val) :=
  ⟨opField_append _ _, valField_append _ _, rfl⟩

theorem Fields.updPpv (val : Word) : Fields.Statement (.updPpv val) :=
  ⟨opField_append _ _, valField_append _ _, rfl⟩

theorem Fields.updI (val : Word) : Fields.Statement (.updI val) :=
  ⟨opField_append _ _, valField_append _ _, rfl⟩

theorem Fields.updCs (val : Word) : Fields.Statement (.updCs val) :=
  ⟨opField_append _ _, valField_append _ _, rfl⟩

theorem Fields.encode (val : Word) : Fields.Statement (.encode val) :=
  ⟨opField_append _ _, valField_append _ _, rfl⟩

theorem Fields.rsv7 (val : Word) : Fields.Statement (.rsv7 val) :=
  ⟨opField_append _ _, valField_append _ _, rfl⟩

end Sys2Proof.Laws
end

