-- ==== Sys2Proof/Laws/Step.lean ====
section
/-! SUPPORT. What a command and a step can do, said once: the equation of each command over the shared operations, and the
inversion of a step; the lines and the diagnostic events of a firing; the cycles of the port. -/

namespace Sys2Proof.Machine

@[simp] theorem exec_nop (val : Word) (s : State) : exec (.nop val) s = .next s := rfl

@[simp] theorem exec_rsv7 (val : Word) (s : State) : exec (.rsv7 val) s = .next s := rfl

theorem exec_encode (val : Word) (s : State) :
    exec (.encode val) s = .next s.takeEncode.answerA.answerB := rfl

/-- A command either leaves the ten registers and the rest of the state alone but for the registers of one quantity, or is
ENCODE. -/
theorem exec_cases (i : Instr) (s : State) :
    (∃ t, exec i s = .next (s.setRegs t)) ∨
    (∃ val, i = .encode val ∧ exec i s = .next s.takeEncode.answerA.answerB) := by
  cases i with
  | nop val => exact .inl ⟨s.regs, rfl⟩
  | updV val => exact .inl ⟨_, rfl⟩
  | updVpv val => exact .inl ⟨_, rfl⟩
  | updPpv val => exact .inl ⟨_, rfl⟩
  | updI val => exact .inl ⟨_, rfl⟩
  | updCs val => exact .inl ⟨_, rfl⟩
  | encode val => exact .inr ⟨val, rfl, rfl⟩
  | rsv7 val => exact .inl ⟨s.regs, rfl⟩

/-- Everything a step can do. -/
theorem step_cases {s t : State} (h : step s = .next t) :
    (s.rst = true ∧ t = s.restart) ∨
    (s.rst = false ∧ s.phase = .sendA ∧ t = s.answerA) ∨
    (s.rst = false ∧ s.phase = .sendB ∧ t = s.answerB) ∨
    (s.rst = false ∧ s.phase = .idle ∧
      ∃ w rest, s.cmds = w :: rest ∧ exec (decode w) { s with cmds := rest } = .next t) ∨
    (s.rst = false ∧ s.phase = .idle ∧ s.cmds = [] ∧ t = s.control) := by
  unfold step at h
  cases hr : s.rst with
  | true => simp only [hr, if_true] at h; injection h with h; exact .inl ⟨rfl, h.symm⟩
  | false =>
    simp only [hr, Bool.false_eq_true, if_false] at h
    cases hp : s.phase with
    | sendA => rw [hp] at h; injection h with h; exact .inr (.inl ⟨rfl, rfl, h.symm⟩)
    | sendB => rw [hp] at h; injection h with h; exact .inr (.inr (.inl ⟨rfl, rfl, h.symm⟩))
    | idle =>
      rw [hp] at h
      cases hc : s.cmds with
      | nil => rw [hc] at h; injection h with h; exact .inr (.inr (.inr (.inr ⟨rfl, rfl, rfl, h.symm⟩)))
      | cons w rest =>
        rw [hc] at h
        exact .inr (.inr (.inr (.inl ⟨rfl, rfl, w, rest, rfl, h⟩)))

/-- Everything the control loop can do when no command waits. -/
theorem control_cases (s : State) :
    (s.loop = .firing ∧ s.control = s.reanchor) ∨
    (s.loop = .polling ∧ s.gateDue = true ∧ s.control = s.fire) ∨
    (s.loop = .polling ∧ s.gateDue = false ∧ s.control = s.poll) := by
  unfold State.control
  cases hl : s.loop with
  | firing => exact .inl ⟨rfl, rfl⟩
  | polling =>
    cases hd : s.gateDue with
    | true => exact .inr (.inl ⟨rfl, rfl, rfl⟩)
    | false => exact .inr (.inr ⟨rfl, rfl, rfl⟩)

/-- With every available line within `LINE_MAX` a firing drains exactly the lines between the line feeds (R102). -/
theorem State.drained_of_short (s : State) (h : ∀ line ∈ (drainLines s.rx).1, line.length ≤ Config.lineMax) :
    s.drained = (drainLines s.rx).1 := by
  unfold State.drained
  generalize (drainLines s.rx).1 = lines at h
  induction lines with
  | nil => rfl
  | cons line more ih =>
    rw [List.flatMap_cons, ih fun x hx => h x (List.mem_cons_of_mem _ hx)]
    simp [bufferLine, h line List.mem_cons_self]

/-- The events of a line are those written out in `lineEvents` (R110, R111, R113). -/
theorem lineDiag_eq (line : Bytes) : lineDiag line = lineEvents line := by
  unfold lineDiag lineEvents
  congr 2
  funext p
  unfold pairDiag isRecognised
  simp only [decide_eq_true_eq]
  rfl

/-- No event of the front end reports an attempt (R91). -/
@[simp] theorem reported_lineDiag (regs : Telemetry) (lines : List Bytes) :
    (lines.flatMap lineDiag).filterMap (DiagEvent.reported regs) = [] := by
  rw [List.filterMap_eq_nil_iff]
  intro e he
  simp only [List.mem_flatMap, lineDiag, List.mem_cons] at he
  obtain ⟨_, _, rfl | ⟨p, _, hp⟩⟩ := he
  · rfl
  · unfold pairDiag at hp
    split_ifs at hp <;> simp at hp <;> subst hp <;> rfl

/-- A cycle with reset asserted restarts the device (R155). -/
theorem portCycle_reset {i : PortIn} (s : State) (h : i.rst = true) : portCycle i s = s.restart := by
  simp [portCycle, h]

/-- With `phase` IDLE a cycle takes the command that is valid, and does nothing without one (R48). -/
theorem portCycle_idle {i : PortIn} {s : State} (h : i.rst = false) (hp : s.phase = .idle) :
    portCycle i s = if i.cmdValid then portTake (decode i.cmdWord) s else s := by
  simp [portCycle, h, hp]

/-- While an ENCODE is under way a cycle without an answer changes nothing (R48, R142). -/
theorem portCycle_waits {i : PortIn} {s : State} (h : i.rst = false) (hp : s.phase ≠ .idle) (ht : i.txDone = false) :
    portCycle i s = s := by
  simp only [portCycle, h, ht]
  cases hs : s.phase <;> simp_all

end Sys2Proof.Machine
end

