-- ==== Sys2Proof/Tests/Slice0.lean ====
section
/-! SUPPORT. Tests: expected results are those of spec/95_test_vectors.md and of the tables of the rules named, and for
every statement with hypotheses a concrete case that meets them. -/

namespace Sys2Proof.Tests

open Sys2Proof.Machine

/-! ## Helpers -/

/-- The registers an outcome leaves, if it is a next state. -/
def regsOf : Host.Outcome State Fault Refusal → Option Telemetry
  | .next t => some t.regs
  | .fault _ => none
  | .refused _ => none

/-- The frames of the output trace an outcome leaves, as identifier and payload. -/
def framesOf : Host.Outcome State Fault Refusal → Option (List (BitVec 11 × Bytes))
  | .next t => some (t.out.map fun x => (x.frame.id, x.frame.data))
  | .fault _ => none
  | .refused _ => none

/-- Ten registers written as in 95_test_vectors.md, in index order. -/
def telem (pvw pvf bvw bvf : Int) (ph pl : Nat) (sg : Nat) (pcw pcf : Nat) (cs : Int) : Telemetry where
  pvWhole := BitVec.ofInt 32 pvw
  pvFrac := BitVec.ofInt 32 pvf
  bvWhole := BitVec.ofInt 32 bvw
  bvFrac := BitVec.ofInt 32 bvf
  ppMsb := BitVec.ofNat 8 ph
  ppLsb := BitVec.ofNat 8 pl
  pcSign := BitVec.ofNat 1 sg
  pcWhole := BitVec.ofNat 32 pcw
  pcFrac := BitVec.ofNat 32 pcf
  cs := BitVec.ofInt 32 cs

/-- The reset state with other registers. -/
def withTelem (t : Telemetry) : State := State.reset.setRegs t

/-- The reset state with command words at the port. -/
def withCmds (ws : List CmdWord) : State := { State.reset with cmds := ws }

/-- The reset state with `phase` set. -/
def withPhase (p : Phase) : State := { State.reset with phase := p }

/-- The reset state at a clock reading, with bytes in the line buffer. -/
def atClock (now : Nat) (rx : Bytes) : State := { State.reset with clock := now, rx := rx }

/-- An integer operand. -/
def op (r : Int) : Word := BitVec.ofInt 32 r

/-! ## Well-formedness -/

-- R47: the first integers beyond each end of the range are refused, the ends are not.
theorem test_wf_operand_range :
    operandInRange 2147483648 = false ∧ operandInRange (-2147483649) = false ∧
    operandInRange 2147483647 = true ∧ operandInRange (-2147483648) = true := by decide

-- R58: every operand is legal, the extreme ones included.
theorem test_wf_every_operand_legal :
    (Instr.updV (op (-2147483648))).wellFormed = true ∧ (Instr.rsv7 (op (-1))).wellFormed = true := by decide

-- R49: a descriptor with a payload byte too many is no frame.
theorem test_wf_frame_length :
    ¬ Frame.wf { id := 0x02D#11, ide := 0#1, rtr := 0#1, dlc := 3#4, data := [0#8, 0#8, 0#8, 0#8] } ∧
    Frame.wf (frameB Telemetry.zero) := by decide

/-! ## Decoding: words written out from R45 and R56 -/

-- 95_test_vectors.md, sections 2.1 to 2.4 and Part 3; each word is opcode then 32 operand bits.
theorem test_decode_nop : decode 0x00000004D#35 = .nop 77#32 := by decide
theorem test_decode_updV : decode 0x1FFFFCFCC#35 = .updV (op (-12340)) := by decide
theorem test_decode_updVpv : decode 0x2000493E0#35 = .updVpv (op 300000) := by decide
theorem test_decode_updPpv : decode 0x300011170#35 = .updPpv (op 70000) := by decide
theorem test_decode_updI : decode 0x480000000#35 = .updI (op (-2147483648)) := by decide
theorem test_decode_updCs : decode 0x500000103#35 = .updCs (op 259) := by decide
theorem test_decode_encode : decode 0x600000000#35 = .encode 0#32 := by decide
theorem test_decode_rsv7 : decode 0x7FFFFFFFF#35 = .rsv7 0xFFFFFFFF#32 := by decide

-- The word of UPD_I -2500 bit by bit: opcode 100, then the two's complement of -2500.
theorem test_decode_updI_bits :
    decode 0b10011111111111111111111011000111100#35 = .updI (op (-2500)) := by decide

theorem test_encode_words :
    encode (.updV (op 12340)) = 0x100003034#35 ∧ encode (.encode 0#32) = 0x600000000#35 ∧
    encode (.updI (op (-2500))) = 0x4FFFFF63C#35 := by decide

-- R45: a number with a bit above bit 34 is no command word.
theorem test_decode_too_wide :
    decodeNat 0x800000000 = .error .tooWide ∧ decodeTableWord 40 0x800000000 = none ∧
    decodeTableWord 35 0x700000005 = some (.rsv7 5#32) := by decide

/-! ## The commands (95_test_vectors.md sections 2.1 to 2.5) -/

theorem test_updV_document_example :
    regsOf (exec (.updV (op 12340)) State.reset) = some (telem 0 0 12 34 0 0 0 0 0 0) := by decide
theorem test_updV_negative_toward_zero :
    regsOf (exec (.updV (op (-12345))) State.reset) = some (telem 0 0 (-12) (-34) 0 0 0 0 0 0) := by decide
theorem test_updVpv_smallest :
    regsOf (exec (.updVpv (op (-2147483648))) State.reset) = some (telem (-2147483) (-64) 0 0 0 0 0 0 0 0) := by decide
theorem test_updVpv_no_rounding :
    regsOf (exec (.updVpv (op 999)) State.reset) = some (telem 0 99 0 0 0 0 0 0 0 0) := by decide
theorem test_updPpv_document_example :
    regsOf (exec (.updPpv (op 1000)) State.reset) = some (telem 0 0 0 0 3 232 0 0 0 0) := by decide
theorem test_updPpv_negative :
    regsOf (exec (.updPpv (op (-1000))) State.reset) = some (telem 0 0 0 0 252 24 0 0 0 0) := by decide
theorem test_updI_smallest :
    regsOf (exec (.updI (op (-2147483648))) State.reset) = some (telem 0 0 0 0 0 0 1 2147483 64 0) := by decide
-- 2.2, sign clearing.
theorem test_updI_clears_sign :
    regsOf (exec (.updI (op 2500)) (withTelem (telem 0 0 0 0 0 0 1 2 50 0)))
      = some (telem 0 0 0 0 0 0 0 2 50 0) := by decide
theorem test_updI_negative_zero :
    regsOf (exec (.updI (op (-9))) State.reset) = some (telem 0 0 0 0 0 0 1 0 0 0) := by decide
theorem test_updCs_verbatim :
    regsOf (exec (.updCs (op (-1))) (withTelem (telem 18 50 13 27 3 232 1 2 50 3)))
      = some (telem 18 50 13 27 3 232 1 2 50 (-1)) := by decide
theorem test_nop_keeps :
    regsOf (exec (.nop (op 77)) (withTelem (telem 18 50 13 27 3 232 1 2 50 3)))
      = some (telem 18 50 13 27 3 232 1 2 50 3) := by decide
theorem test_rsv7_keeps :
    regsOf (exec (.rsv7 (op 5)) (withTelem (telem 18 50 13 27 3 232 1 2 50 3)))
      = some (telem 18 50 13 27 3 232 1 2 50 3) := by decide
-- 2.5, second row: the document's three examples together.
theorem test_encode_document_examples :
    framesOf (exec (.encode 0#32) (withTelem (telem 0 0 12 34 3 232 1 2 50 0)))
      = some [(0x02C#11, [0x00#8, 0x00#8, 0x03#8, 0xE8#8, 0x0C#8, 0x22#8, 0x00#8]),
              (0x02D#11, [0x01#8, 0x02#8, 0x32#8])] := by decide
-- Part 3, P3: wrapping in the frame only.
theorem test_encode_wraps :
    framesOf (exec (.encode 0#32) (withTelem (telem 300 0 (-12) (-34) 17 112 1 2147483 64 259)))
      = some [(0x02C#11, [0x2C#8, 0x00#8, 0x11#8, 0x70#8, 0xF4#8, 0xDE#8, 0x03#8]),
              (0x02D#11, [0x01#8, 0x9B#8, 0x40#8])] := by decide

/-! ## The front end (R104, R108, R115) -/

theorem test_tokenize_trailing_tab :
    tokenize (ascii ['V'] ++ tabByte :: ascii ['1', '2', '3', '4', '0'] ++ [tabByte])
      = [(ascii ['V'], ascii ['1', '2', '3', '4', '0'])] := by decide
theorem test_tokenize_key_without_value :
    tokenize (ascii ['A'] ++ tabByte :: ascii ['B'] ++ tabByte :: ascii ['C']) = [(ascii ['A'], ascii ['B'])] := by decide
theorem test_line_two_commands :
    lineCommands (ascii ['V'] ++ tabByte :: ascii ['1', '2', '3', '4', '0'] ++ tabByte :: ascii ['I'] ++ tabByte ::
        ascii ['-', '2', '5', '0', '0'])
      = [.updV (op 12340), .updI (op (-2500))] := by decide
theorem test_line_malformed_and_unknown :
    lineCommands (ascii ['V'] ++ tabByte :: ascii ['a', 'b', 'c']) = [.updV 0#32] ∧
    lineCommands (ascii ['v'] ++ tabByte :: ascii ['1']) = [.nop 0#32] ∧
    lineCommands (ascii ['P', 'I', 'D'] ++ tabByte :: ascii ['0', 'x', 'A']) = [.nop 0#32] ∧
    lineCommands (ascii ['V']) = [] := by decide
theorem test_toInt_numeric :
    toInt (ascii ['0', '0', '7']) = 7#32 ∧ toInt (ascii ['-', '0']) = 0#32 ∧
    toInt (ascii ['-', '2', '1', '4', '7', '4', '8', '3', '6', '4', '8']) = 0x80000000#32 ∧
    toInt (ascii ['-']) = 0#32 ∧ toInt [] = 0#32 := by decide
theorem test_toInt_mixed :
    classify (ascii ['2', '1', '4', '7', '4', '8', '3', '6', '4', '8']) = .mixed ∧
    classify (ascii ['1', '2', '.', '5']) = .mixed ∧ classify (ascii ['+', '5']) = .mixed ∧
    classify (ascii [' ', '5']) = .mixed ∧ classify (ascii ['5'] ++ [0x0D#8]) = .mixed := by decide
theorem test_drain_keeps_the_unfinished_line :
    drainLines (ascii ['a'] ++ lfByte :: lfByte :: ascii ['b']) = ([ascii ['a'], []], ascii ['b']) := by decide

/-! ## Text of commands (R60, R62) -/

theorem test_assemble :
    assembleLine (ascii ['U', 'P', 'D', '_', 'V', ' ', ' ', ' ', '1', '2', '3', '4', '0', ' ', '#', 'x'])
      = .ok (some 0x100003034#35) ∧
    assembleLine (ascii ['N', 'O', 'P', ' ', '7', '7']) = .ok (some 0x00000004D#35) ∧
    assembleLine (ascii ['#', 'x']) = .ok none := by decide
theorem test_assemble_refuses :
    assembleLine (ascii ['H', 'L', 'T']) = .error .unknownMnemonic ∧
    assembleLine (ascii ['U', 'P', 'D', '_', 'I']) = .error .missingOperand ∧
    assembleLine (ascii ['U', 'P', 'D', '_', 'I', ' ', '+', '5']) = .error .badOperand ∧
    assembleLine (ascii ['U', 'P', 'D', '_', 'I', ' ', '2', '1', '4', '7', '4', '8', '3', '6', '4', '8'])
      = .error .operandOutOfRange ∧
    assembleLine (ascii ['N', 'O', 'P', ' ', '1', ' ', '2']) = .error .trailingText := by decide
theorem test_disassemble :
    disassemble 0x700000005#35 = ascii ['R', 'S', 'V', '7', ' ', '5'] ∧
    disassemble 0x600000000#35 = ascii ['E', 'N', 'C', 'O', 'D', 'E'] ∧
    disassemble 0x4FFFFF63C#35 = ascii ['U', 'P', 'D', '_', 'I', ' ', '-', '2', '5', '0', '0'] := by decide

/-! ## Witnesses: for every statement with hypotheses, cases that meet them, clause by clause -/

-- EveryWordSelectsItsTableRow: one word for each of the eight clauses.
theorem test_witness_table_rows :
    (0x0FFFFFFFF#35 &&& 0x700000000#35 = 0x000000000#35 ∧ decode 0x0FFFFFFFF#35 = .nop 0xFFFFFFFF#32) ∧
    (0x100000000#35 &&& 0x700000000#35 = 0x100000000#35 ∧ decode 0x100000000#35 = .updV 0#32) ∧
    (0x2FFFFFFFF#35 &&& 0x700000000#35 = 0x200000000#35 ∧ decode 0x2FFFFFFFF#35 = .updVpv 0xFFFFFFFF#32) ∧
    (0x300000000#35 &&& 0x700000000#35 = 0x300000000#35 ∧ decode 0x300000000#35 = .updPpv 0#32) ∧
    (0x4FFFFFFFF#35 &&& 0x700000000#35 = 0x400000000#35 ∧ decode 0x4FFFFFFFF#35 = .updI 0xFFFFFFFF#32) ∧
    (0x500000000#35 &&& 0x700000000#35 = 0x500000000#35 ∧ decode 0x500000000#35 = .updCs 0#32) ∧
    (0x6FFFFFFFF#35 &&& 0x700000000#35 = 0x600000000#35 ∧ decode 0x6FFFFFFFF#35 = .encode 0xFFFFFFFF#32) ∧
    (0x700000000#35 &&& 0x700000000#35 = 0x700000000#35 ∧ decode 0x700000000#35 = .rsv7 0#32) := by decide

-- UpdPpvWritesPanelPower: the largest operand of the last clause.
theorem test_witness_ppv_range :
    (op 65535).toNat ≤ 65535 ∧ regsOf (exec (.updPpv (op 65535)) State.reset) = some (telem 0 0 0 0 255 255 0 0 0 0) := by
  decide

-- StepExecutesTheDecodedCommand.
theorem test_witness_step :
    (withCmds [0x100003034#35]).rst = false ∧ (withCmds [0x100003034#35]).phase = .idle ∧
    (withCmds [0x100003034#35]).cmds = 0x100003034#35 :: [] ∧
    regsOf (step (withCmds [0x100003034#35])) = some (telem 0 0 12 34 0 0 0 0 0 0) := by decide

-- ResetInputRestartsTheDevice.
theorem test_witness_reset_input :
    ({ withTelem (telem 1 2 3 4 5 6 1 7 8 9) with rst := true } : State).rst = true ∧
    regsOf (step { withTelem (telem 1 2 3 4 5 6 1 7 8 9) with rst := true }) = some (telem 0 0 0 0 0 0 0 0 0 0) := by
  decide

-- EncodeUnderWayBlocksCommands, both clauses.
theorem test_witness_encode_under_way :
    (withPhase .sendA).rst = false ∧ (withPhase .sendA).phase = .sendA ∧
    framesOf (step (withPhase .sendA)) = some [(0x02C#11, [0#8, 0#8, 0#8, 0#8, 0#8, 0#8, 0#8])] ∧
    (withPhase .sendB).rst = false ∧ (withPhase .sendB).phase = .sendB ∧
    framesOf (step (withPhase .sendB)) = some [(0x02D#11, [0#8, 0#8, 0#8])] := by decide

-- EveryRegisterHasOneWriter, one step for each of the five clauses.
theorem test_witness_writer_vpv : ∃ t, step (withCmds [0x2000003E8#35]) = .next t ∧ t.regs.pvWhole ≠ 0#32 :=
  ⟨_, rfl, by decide⟩
theorem test_witness_writer_v : ∃ t, step (withCmds [0x1000003E8#35]) = .next t ∧ t.regs.bvWhole ≠ 0#32 :=
  ⟨_, rfl, by decide⟩
theorem test_witness_writer_ppv : ∃ t, step (withCmds [0x3000003E8#35]) = .next t ∧ t.regs.ppMsb ≠ 0#8 :=
  ⟨_, rfl, by decide⟩
theorem test_witness_writer_i : ∃ t, step (withCmds [0x4FFFFFFFF#35]) = .next t ∧ t.regs.pcSign ≠ 0#1 :=
  ⟨_, rfl, by decide⟩
theorem test_witness_writer_cs : ∃ t, step (withCmds [0x500000003#35]) = .next t ∧ t.regs.cs ≠ 0#32 :=
  ⟨_, rfl, by decide⟩

-- EveryFrameHandedOverIsAOrB, and the four step invariants: an ENCODE taken from reset.
theorem test_witness_encode_step : ∃ t, step (withCmds [0x600000000#35]) = .next t ∧ t.out.length = 2 ∧
    t.out.map (fun x => x.frame.dlc) = [7#4, 3#4] := ⟨_, rfl, rfl, rfl⟩
theorem test_witness_invariants :
    (withCmds [0x600000000#35]).regs.InRange ∧ (withCmds [0x600000000#35]).Paired ∧
    ({ withCmds [0x600000000#35] with loop := .firing } : State).EnvironmentShaped ∧
    (withCmds [0x600000000#35]).ClockReadings :=
  ⟨by constructor <;> decide, ⟨rfl, trivial⟩, .inr ⟨rfl, .inl ⟨by decide, rfl⟩⟩, Nat.two_pow_pos _, Nat.two_pow_pos _⟩

-- RepeatingAnUpdateChangesNothing, UpdatesOfDifferentQuantitiesCommute (first and third clause).
theorem test_witness_quantities :
    (Instr.updI (op (-5))).isEncode = false ∧ (Instr.updV (op 1)).quantity ≠ none ∧ (Instr.updI (op 2)).quantity ≠ none ∧
    (Instr.updV (op 1)).quantity ≠ (Instr.updI (op 2)).quantity ∧
    (Instr.updV (op 1)).quantity = (Instr.updV (op 2)).quantity := by decide

-- ConsecutiveEncodesHandOverEqualFrames: what may stand between the two.
theorem test_witness_between :
    ∀ i ∈ [Instr.nop (op 77), .rsv7 (op 5)], i.quantity = none ∧ i.isEncode = false := by decide

-- NeverUpdatedQuantitiesAreSentAsZero: for each of the five clauses a list of the four other updates.
theorem test_witness_never_updated :
    (∀ i ∈ [Instr.updV (op 1), .updPpv (op 2), .updI (op 3), .updCs (op 4)], operandVpv i = none) ∧
    (∀ i ∈ [Instr.updV (op 1), .updVpv (op 2), .updI (op 3), .updCs (op 4)], operandPpv i = none) ∧
    (∀ i ∈ [Instr.updVpv (op 1), .updPpv (op 2), .updI (op 3), .updCs (op 4)], operandV i = none) ∧
    (∀ i ∈ [Instr.updV (op 1), .updVpv (op 2), .updPpv (op 3), .updI (op 4)], operandCs i = none) ∧
    (∀ i ∈ [Instr.updV (op 1), .updVpv (op 2), .updPpv (op 3), .updCs (op 4)], operandI i = none) := by decide

-- ReceiverReconstructsValuesInRange: every operand at an end of its range (95_test_vectors.md 2.1, 2.2).
theorem test_witness_no_wrap_ranges :
    (op 255999).toNat ≤ 255999 ∧ (op 65535).toNat ≤ 65535 ∧ (op 255).toNat ≤ 255 ∧
    -255999 ≤ (op (-255999)).toInt ∧ (op (-255999)).toInt ≤ 255999 := by decide

-- TokenizerExtractsExactlyThePairs, TokenizerEdgeCases: keys and values without a TAB.
theorem test_witness_tab_free :
    [(keyV, ascii ['1']), (keyI, ascii ['-', '5'])] ≠ [] ∧
    (∀ p ∈ [(keyV, ascii ['1']), (keyI, ascii ['-', '5'])], tabByte ∉ p.1 ∧ tabByte ∉ p.2) := by decide

-- NumericTokensConvertToTheirNumber: the ends of the range.
theorem test_witness_numeric_ends :
    intText (-2147483648) = ascii ['-', '2', '1', '4', '7', '4', '8', '3', '6', '4', '8'] ∧
    toInt (intText 2147483647) = 0x7FFFFFFF#32 ∧
    0x2D#8 :: (List.replicate 2 0x30#8 ++ natText 10 2147483648)
      = ascii ['-', '0', '0', '2', '1', '4', '7', '4', '8', '3', '6', '4', '8'] ∧
    toInt (ascii ['-', '0', '0', '2', '1', '4', '7', '4', '8', '3', '6', '4', '8']) = 0x80000000#32 := by decide

-- MixedTokensConvertByTheParameter, first clause: `12.5` has a digit and is not a sign and digits alone.
theorem test_witness_mixed_bytes :
    (∃ b ∈ ascii ['1', '2', '.', '5'], 0x30 ≤ b.toNat ∧ b.toNat ≤ 0x39) ∧
    ¬ ∃ digits : Bytes, digits ≠ [] ∧ (∀ d ∈ digits, 0x30 ≤ d.toNat ∧ d.toNat ≤ 0x39) ∧
      (ascii ['1', '2', '.', '5'] = digits ∨ ascii ['1', '2', '.', '5'] = 0x2D#8 :: digits) := by
  refine ⟨by decide, ?_⟩
  rintro ⟨digits, _, h, rfl | e⟩
  · exact absurd (h 0x2E#8 (by decide)) (by decide)
  · exact absurd (List.cons.inj e).1 (by decide)

-- MixedTokensConvertByTheParameter, second and third clause: the first number beyond each end.
theorem test_witness_mixed_overflow :
    2147483648 < 10 ^ 10 ∧ 2147483647 < 2147483648 ∧ classify (natText 10 2147483648) = .mixed ∧
    2147483649 < 10 ^ 10 ∧ 2147483648 < 2147483649 ∧ classify (0x2D#8 :: natText 10 2147483649) = .mixed := by decide

-- MalformedTokenOverwritesWithZero.
theorem test_witness_no_digit : ∀ b ∈ ascii ['a', 'b', 'c'], ¬ (0x30 ≤ b.toNat ∧ b.toNat ≤ 0x39) := by decide

-- OtherKeysAreIgnored, both clauses.
theorem test_witness_other_key :
    ascii ['F', 'O', 'O'] ∉ [ascii ['V'], ascii ['V', 'P', 'V'], ascii ['P', 'P', 'V'], ascii ['I'], ascii ['C', 'S']] ∧
    ascii ['F', 'O', 'O'] ∉ diagKeys := by decide

-- IdleGateIssuesNothing (32 ms), DueGateDrainsAndIssuesOneEncode and FiringDrainsThenEncodesThenReanchors (33 ms): where
-- the clauses meet.
theorem test_witness_gate :
    (atClock 32 []).gateDue = false ∧ (atClock 32 []).clock - (atClock 32 []).anchor < 33 ∧
    (atClock 33 [lfByte]).gateDue = true ∧ 33 ≤ (atClock 33 [lfByte]).clock - (atClock 33 [lfByte]).anchor ∧
    (atClock 33 [lfByte]).rst = false ∧ (atClock 33 [lfByte]).phase = .idle ∧ (atClock 33 [lfByte]).cmds = [] ∧
    (atClock 33 [lfByte]).loop = .polling ∧ (atClock 33 [lfByte]).anchor ≤ (atClock 33 [lfByte]).clock := by decide
-- The clauses for lines within LINE_MAX of the firing statements: an empty line is, whatever LINE_MAX is.
theorem test_witness_short_lines :
    (drainLines (atClock 33 [lfByte]).rx).1 = [[]] ∧
    ∀ line ∈ (drainLines (atClock 33 [lfByte]).rx).1, line.length ≤ Config.lineMax := by
  refine ⟨by decide, fun line h => ?_⟩
  rw [show (drainLines (atClock 33 [lfByte]).rx).1 = [[]] by decide, List.mem_singleton] at h
  rw [h]
  exact Nat.zero_le _
-- FiringEmitsFrontEndDiagnostics (R110, R111, R113): raw line, decode result, display, and none for an unknown key.
theorem test_line_events :
    (lineEvents (ascii ['V'] ++ tabByte :: ascii ['7'] ++ tabByte :: ascii ['F', 'O', 'O'] ++ tabByte :: ascii ['1'] ++
        tabByte :: ascii ['P', 'I', 'D'] ++ tabByte :: ascii ['2'])).map
      (fun e => match e with
        | .rawLine _ => 1
        | .decoded _ _ _ => 2
        | .display _ _ => 3
        | .txResult _ _ => 4) = [1, 2, 3] := by decide
-- A firing with no input presents just the ENCODE (R136).
theorem test_firing_without_input : ∃ t, step (atClock 33 []) = .next t ∧ t.cmds = [0x600000000#35] := ⟨_, rfl, by decide⟩

-- FiringEndsByResettingTheAnchor.
theorem test_witness_reanchor : ∃ t, step { atClock 40 [] with loop := .firing } = .next t ∧ t.anchor = 40 := ⟨_, rfl, rfl⟩

-- PortIsReadyOnlyWhenIdle, PortTakesUpdatesInOneCycle, PortLevelEncodeRefinesTheAtomicStep.
theorem test_witness_port_update :
    (portCycle { rst := false, cmdValid := true, cmdWord := 0x100003034#35, txDone := false, txOk := false }
      State.reset).regs = telem 0 0 12 34 0 0 0 0 0 0 ∧
    (portOut false State.reset).cmdReady = true ∧ (decode 0x100003034#35).isEncode = false := by decide
theorem test_witness_port_busy :
    (portOut false (withPhase .sendA)).cmdReady = false ∧ (portOut true State.reset).cmdReady = false := by decide
-- FramePortCarriesTheFrameUnderWay: SEND_A waiting, SEND_B answered, IDLE; PortResetRestartsTheDevice: reset cuts off
-- Frame A.
theorem test_witness_frame_port :
    (withPhase .sendA).phase = .sendA ∧ (portOut false (withPhase .sendA)).txFrame.map Frame.id = some 0x02C#11 ∧
    (withPhase .sendB).phase = .sendB ∧ (portOut false (withPhase .sendB)).txFrame.map Frame.id = some 0x02D#11 ∧
    (portOut false State.reset).txFrame = none ∧ (portOut true (withPhase .sendA)).txFrame = none ∧
    (portCycle { rst := false, cmdValid := true, cmdWord := 0x100003034#35, txDone := false, txOk := true }
      (withPhase .sendA)) = withPhase .sendA ∧
    (portCycle { rst := false, cmdValid := false, cmdWord := 0#35, txDone := true, txOk := true }
      (withPhase .sendB)).out.map (fun x => (x.frame.id, x.ok)) = [(0x02D#11, true)] := by decide
theorem test_witness_port_reset :
    (portCycle { rst := true, cmdValid := true, cmdWord := 0x100003034#35, txDone := true, txOk := true }
      { withTelem (telem 1 2 3 4 5 6 1 7 8 9) with phase := .sendA }).regs = telem 0 0 0 0 0 0 0 0 0 0 ∧
    (portCycle { rst := true, cmdValid := true, cmdWord := 0x100003034#35, txDone := true, txOk := true }
      (withPhase .sendA)).phase = .idle := by decide
-- ENCODE taken, one waiting cycle, Frame A refused, Frame B accepted: the two frames of reset registers, one after the other.
theorem test_witness_port_encode :
    (decode 0x600000000#35).isEncode = true ∧
    (portRun State.reset
      [{ rst := false, cmdValid := true, cmdWord := 0x600000000#35, txDone := false, txOk := false },
       { rst := false, cmdValid := true, cmdWord := 0x100003034#35, txDone := false, txOk := false },
       { rst := false, cmdValid := false, cmdWord := 0#35, txDone := true, txOk := false },
       { rst := false, cmdValid := false, cmdWord := 0#35, txDone := true, txOk := true }]).out.map
      (fun x => (x.frame.id, x.ok)) = [(0x02C#11, false), (0x02D#11, true)] := by decide

-- withFetchWord: the next step takes exactly the placed word, for an update and for the reserved code.
theorem test_fetch_word :
    regsOf (step (State.reset.withFetchWord 40 0x100003034)) = some (telem 0 0 12 34 0 0 0 0 0 0) ∧
    regsOf (step (State.reset.withFetchWord 40 0x700000000)) = some (telem 0 0 0 0 0 0 0 0 0 0) := by decide

end Sys2Proof.Tests
end

section
/-! Proofs about 10_state.md: what a command and a step do to the ten registers, the ranges of the store, the current
triple, and the ENCODE at the port. -/

namespace Sys2Proof.Machine

/-! ## What a command and a step do to the registers (R16, R26, R34) -/

/-- The registers a command leaves, from those it finds (40_update_ops.md R70 to R76, 41_encode_op.md R92). -/
def Telemetry.afterCommand (t : Telemetry) : Instr → Telemetry
  | .updV val => t.putBatteryVoltage (tcWord (split (rawSigned val)).1) (tcWord (split (rawSigned val)).2)
  | .updVpv val => t.putPanelVoltage (tcWord (split (rawSigned val)).1) (tcWord (split (rawSigned val)).2)
  | .updPpv val => t.putPanelPower (bits15to8 val) (bits7to0 val)
  | .updI val => t.putPanelCurrent (signFlag (rawSigned val)) (tcWord (magWhole (rawSigned val)))
      (tcWord (magFrac (rawSigned val)))
  | .updCs val => t.putChargeStatus val
  | .nop _ => t
  | .encode _ => t
  | .rsv7 _ => t

theorem exec_regs {i : Instr} {s t : State} (h : exec i s = .next t) : t.regs = s.regs.afterCommand i := by
  cases i <;> (cases h; rfl)

theorem control_regs (s : State) : s.control.regs = s.regs := by
  obtain ⟨-, h⟩ | ⟨-, -, h⟩ | ⟨-, -, h⟩ := control_cases s <;> simp [h]

/-- All a step can do to the registers: reset zeroes them, and otherwise only the command taken at the idle port writes
them. -/
theorem step_regs_cases {s t : State} (h : step s = .next t) :
    (s.rst = true ∧ t.regs = Telemetry.zero) ∨ t.regs = s.regs ∨
    (s.phase = .idle ∧ ∃ w, s.cmds.head? = some w ∧ t.regs = s.regs.afterCommand (decode w)) := by
  obtain ⟨hr, rfl⟩ | ⟨-, -, rfl⟩ | ⟨-, -, rfl⟩ | ⟨-, hp, w, rest, hc, he⟩ | ⟨-, -, -, rfl⟩ := step_cases h
  · exact .inl ⟨hr, rfl⟩
  · exact .inr (.inl rfl)
  · exact .inr (.inl rfl)
  · exact .inr (.inr ⟨hp, w, by simp [hc], exec_regs (s := { s with cmds := rest }) he⟩)
  · exact .inr (.inl (control_regs s))

/-- The registers of a quantity change under the update command of that quantity only. -/
theorem afterCommand_changes (t : Telemetry) (i : Instr) :
    (((t.afterCommand i).pvWhole ≠ t.pvWhole ∨ (t.afterCommand i).pvFrac ≠ t.pvFrac) → ∃ val, i = .updVpv val) ∧
    (((t.afterCommand i).bvWhole ≠ t.bvWhole ∨ (t.afterCommand i).bvFrac ≠ t.bvFrac) → ∃ val, i = .updV val) ∧
    (((t.afterCommand i).ppMsb ≠ t.ppMsb ∨ (t.afterCommand i).ppLsb ≠ t.ppLsb) → ∃ val, i = .updPpv val) ∧
    (((t.afterCommand i).pcSign ≠ t.pcSign ∨ (t.afterCommand i).pcWhole ≠ t.pcWhole ∨
      (t.afterCommand i).pcFrac ≠ t.pcFrac) → ∃ val, i = .updI val) ∧
    ((t.afterCommand i).cs ≠ t.cs → ∃ val, i = .updCs val) := by
  cases i <;> simp [Telemetry.afterCommand]

/-- Settles O21: a step that changes a register has taken the update command of its quantity at the idle port. -/
theorem everyRegisterHasOneWriter : Obligations.EveryRegisterHasOneWriter := by
  intro s t hrst h
  obtain ⟨hreset, -⟩ | same | ⟨hp, w, hw, hregs⟩ := step_regs_cases h
  · simp [hrst] at hreset
  · simp [same]
  · obtain ⟨pv, bv, pp, pc, cs⟩ := afterCommand_changes s.regs (decode w)
    have taken {c : Word → Instr} (hc : ∃ val, decode w = c val) :
        s.phase = .idle ∧ ∃ w val, s.cmds.head? = some w ∧ decode w = c val :=
      ⟨hp, w, hc.imp fun _ e => ⟨hw, e⟩⟩
    rw [hregs]
    exact ⟨taken ∘ pv, taken ∘ bv, taken ∘ pp, taken ∘ pc, taken ∘ cs⟩

/-! ## The ranges of the store (R17) -/

/-- The range of a voltage pair (R17): both parts bounded, and never of opposite sign. -/
structure VoltageInRange (w f : Word) : Prop where
  whole : -2147483 ≤ w.toInt ∧ w.toInt ≤ 2147483
  frac : -99 ≤ f.toInt ∧ f.toInt ≤ 99
  sign : (0 < w.toInt → 0 ≤ f.toInt) ∧ (w.toInt < 0 → f.toInt ≤ 0)

theorem split_signs_agree (r : Int) :
    (0 < (split r).1 → 0 ≤ (split r).2) ∧ ((split r).1 < 0 → (split r).2 ≤ 0) := by
  rw [split_eq]
  split <;> dsimp only <;> omega

theorem voltageInRange_split (val : Word) :
    VoltageInRange (tcWord (split (rawSigned val)).1) (tcWord (split (rawSigned val)).2) := by
  obtain ⟨hw, hf⟩ := split_bounds val
  have ew := toInt_tcWord (i := (split (rawSigned val)).1) (by omega) (by omega)
  have ef := toInt_tcWord (i := (split (rawSigned val)).2) (by omega) (by omega)
  exact ⟨by rwa [ew], by rwa [ef], by rw [ew, ef]; exact split_signs_agree _⟩

theorem toNat_tcWord_magWhole (val : Word) : (tcWord (magWhole (rawSigned val))).toNat = magWhole (rawSigned val) :=
  toNat_tcWord ((magWhole_le val).trans_lt (by decide))

theorem toNat_tcWord_magFrac (r : Int) : (tcWord (magFrac r)).toNat = magFrac r :=
  toNat_tcWord ((magFrac_le r).trans_lt (by decide))

namespace Telemetry.InRange

theorem zero : Telemetry.zero.InRange := by constructor <;> decide

variable {t : Telemetry} (h : t.InRange)
include h

theorem putBatteryVoltage {whole frac : Word} (hv : VoltageInRange whole frac) :
    (t.putBatteryVoltage whole frac).InRange :=
  { h with bvWhole := hv.whole, bvFrac := hv.frac, bvSign := hv.sign }

theorem putPanelVoltage {whole frac : Word} (hv : VoltageInRange whole frac) :
    (t.putPanelVoltage whole frac).InRange :=
  { h with pvWhole := hv.whole, pvFrac := hv.frac, pvSign := hv.sign }

theorem putPanelCurrent (sign : BitVec 1) {whole frac : Word} (hw : whole.toNat ≤ 2147483) (hf : frac.toNat ≤ 99) :
    (t.putPanelCurrent sign whole frac).InRange :=
  { h with pcWhole := hw, pcFrac := hf }

theorem putPanelPower (msb lsb : Byte) : (t.putPanelPower msb lsb).InRange := { h with }

theorem putChargeStatus (code : Word) : (t.putChargeStatus code).InRange := { h with }

theorem afterCommand (i : Instr) : (t.afterCommand i).InRange := by
  cases i with
  | updV val => exact h.putBatteryVoltage (voltageInRange_split val)
  | updVpv val => exact h.putPanelVoltage (voltageInRange_split val)
  | updPpv val => exact h.putPanelPower _ _
  | updI val =>
    exact h.putPanelCurrent _ ((toNat_tcWord_magWhole val).trans_le (magWhole_le val))
      ((toNat_tcWord_magFrac _).trans_le (magFrac_le _))
  | updCs val => exact h.putChargeStatus val
  | nop _ => exact h
  | encode _ => exact h
  | rsv7 _ => exact h

end Telemetry.InRange

/-- Settles O34: reset zeroes the registers, a command keeps their ranges, and nothing else writes them. -/
theorem stepKeepsTheStoreInRange : Obligations.StepKeepsTheStoreInRange := by
  intro s t hs h
  obtain ⟨-, zero⟩ | same | ⟨-, w, -, hregs⟩ := step_regs_cases h
  · rw [zero]
    exact .zero
  · rwa [same]
  · rw [hregs]
    exact hs.afterCommand (decode w)

/-! ## The current triple (R19, R68) -/

theorem signFlag_eq_one_iff (r : Int) : signFlag r = 1#1 ↔ r < 0 := by
  unfold signFlag
  split <;> simp_all

/-- The signed value of the magnitude split, with the digit that it cuts off, is the raw value. -/
theorem magnitude_split_recombines (r : Int) :
    (1 - 2 * ((signFlag r).toNat : Int)) * (1000 * magWhole r + 10 * magFrac r) + Int.tmod r 10 = r := by
  have hdigit : Int.tmod r 10 = r - 10 * if 0 ≤ r then r / 10 else -(-r / 10) := by
    rw [← tmod_eq]
    exact congrArg (r - 10 * ·) (tdiv_eq_ite r 10)
  rw [hdigit, magWhole_eq, magFrac_eq]
  by_cases hr : r < 0
  · have hflag : ((signFlag r).toNat : Int) = 1 := by simp [signFlag, hr]
    rw [hflag]
    split <;> omega
  · have hflag : ((signFlag r).toNat : Int) = 0 := by simp [signFlag, hr]
    rw [hflag]
    split <;> omega

/-- Settles O24: the stored triple is the magnitude split itself, with no wrap, and that recombines. -/
theorem currentTripleIsTheRawValueLessItsLastDigit : Obligations.CurrentTripleIsTheRawValueLessItsLastDigit := by
  intro val s
  refine ⟨_, rfl, signFlag_eq_one_iff _, ?_⟩
  simp only [State.setRegs_regs, Telemetry.putPanelCurrent_pcSign, Telemetry.putPanelCurrent_pcWhole,
    Telemetry.putPanelCurrent_pcFrac, toNat_tcWord_magWhole, toNat_tcWord_magFrac]
  exact ⟨magFrac_le _, magWhole_le val, magnitude_split_recombines _⟩

/-! ## The ENCODE at the port (R24, R48, R142) -/

theorem isEncode_iff (i : Instr) : i.isEncode = true ↔ ∃ val, i = .encode val := by
  cases i <;> simp [Instr.isEncode]

theorem portCycle_takes_encode {i : PortIn} {s : State} {val : Word} (hr : i.rst = false) (hp : s.phase = .idle)
    (hv : i.cmdValid = true) (hd : decode i.cmdWord = .encode val) : portCycle i s = s.takeEncode := by
  rw [portCycle_idle hr hp, if_pos hv, hd]
  rfl

theorem portCycle_answers_a {i : PortIn} {s : State} (hr : i.rst = false) (hp : s.phase = .sendA)
    (ht : i.txDone = true) : portCycle i s = { s.answered .a i.txOk with phase := .sendB } := by
  simp [portCycle, hr, hp, ht]

theorem portCycle_answers_b {i : PortIn} {s : State} (hr : i.rst = false) (hp : s.phase = .sendB)
    (ht : i.txDone = true) : portCycle i s = { s.answered .b i.txOk with phase := .idle } := by
  simp [portCycle, hr, hp, ht]

/-- Waiting cycles while a frame is at the port can be left out of a run. -/
theorem portRun_waits_append {s : State} (hp : s.phase ≠ .idle) (rest : List PortIn) :
    ∀ waits : List PortIn, (∀ i ∈ waits, i.rst = false ∧ i.txDone = false) →
      portRun s (waits ++ rest) = portRun s rest
  | [], _ => rfl
  | i :: waits, h => by
    obtain ⟨⟨hr, ht⟩, hwaits⟩ := List.forall_mem_cons.mp h
    rw [List.cons_append, portRun, portCycle_waits hr hp ht]
    exact portRun_waits_append hp rest waits hwaits

/-- Settles O52: the waiting cycles drop out, and the three that remain are the three moves of the atomic ENCODE. -/
theorem portLevelEncodeRefinesTheAtomicStep : Obligations.PortLevelEncodeRefinesTheAtomicStep := by
  intro s take doneA doneB waitA waitB hp hr hv he hrA hdA hrB hdB hwA hwB
  obtain ⟨val, hd⟩ := (isEncode_iff _).mp he
  have hrun : portRun s (take :: waitA ++ doneA :: waitB ++ [doneB]) =
      { ({ s.takeEncode.answered .a doneA.txOk with phase := .sendB } : State).answered .b doneB.txOk with
        phase := .idle } := by
    simp only [List.cons_append, List.append_assoc]
    rw [portRun, portCycle_takes_encode hr hp hv hd, portRun_waits_append (by simp) _ _ hwA,
      portRun, portCycle_answers_a hrA rfl hdA, portRun_waits_append (by simp) _ _ hwB,
      portRun, portCycle_answers_b hrB rfl hdB, portRun]
  refine ⟨_, by rw [hd, exec_encode], ?_⟩
  dsimp only
  rw [hrun]
  simp [frameOf]

/-! ## The reset state (R26) -/

/-- Settles O17. -/
theorem resetLeavesZeroAndIdle : Obligations.ResetLeavesZeroAndIdle := ⟨rfl, rfl⟩

/-- Settles O38: zero registers are in range, the empty trace is paired, no command waits, and 0 is a clock reading. -/
theorem resetMeetsTheInvariants : Obligations.ResetMeetsTheInvariants :=
  ⟨Telemetry.InRange.zero, ⟨rfl, trivial⟩, .inl rfl, Nat.two_pow_pos _, Nat.two_pow_pos _⟩

end Sys2Proof.Machine
end

section
/-! Proofs about 20_memory.md: the command a step takes, the frames of an ENCODE and their order, and the commands the
environment issues. -/

namespace Sys2Proof.Machine

/-! ## The command a step takes (R38, R48) -/

/-- Settles O15. -/
theorem stepExecutesTheDecodedCommand : Obligations.StepExecutesTheDecodedCommand := by
  intro s w rest hr hp hc
  simp [step, hr, hp, hc]

/-- Everything a completed command can leave: other registers and nothing else changed, or the three moves of ENCODE. -/
theorem exec_next_cases {i : Instr} {s t : State} (h : exec i s = .next t) :
    (∃ regs, t = s.setRegs regs) ∨ t = s.takeEncode.answerA.answerB := by
  obtain ⟨regs, e⟩ | ⟨_, -, e⟩ := exec_cases i s <;> cases h.symm.trans e
  · exact .inl ⟨regs, rfl⟩
  · exact .inr rfl

/-- No command touches the command port or the control loop. -/
theorem exec_cmds_loop {i : Instr} {s t : State} (h : exec i s = .next t) : t.cmds = s.cmds ∧ t.loop = s.loop := by
  obtain ⟨_, rfl⟩ | rfl := exec_next_cases h <;> exact ⟨rfl, rfl⟩

/-! ## The frames of an ENCODE and their order (R35, R39, R89) -/

/-- ENCODE appends Frame A and then Frame B of the registers it finds, the latter attempted whatever the driver's answer to
the former (R89). -/
theorem encode_out (s : State) : s.takeEncode.answerA.answerB.out =
    s.out ++ [{ frame := frameA s.regs, ok := txAnswer s.draws },
              { frame := frameB s.regs, ok := txAnswer (s.draws + 1) }] := by
  simp

theorem exec_keeps_paired {i : Instr} {s t : State} (hs : s.Paired) (h : exec i s = .next t) : t.Paired := by
  obtain ⟨_, rfl⟩ | rfl := exec_next_cases h
  · exact hs
  · refine ⟨rfl, ?_⟩
    rw [encode_out]
    exact framesPaired_append_pair hs.2 (frameA_isA _) (frameB_isB _)

theorem control_phase_out (s : State) : s.control.phase = s.phase ∧ s.control.out = s.out := by
  obtain ⟨-, h⟩ | ⟨-, -, h⟩ | ⟨-, -, h⟩ := control_cases s <;> simp [h]

/-- Settles O35: from phase IDLE only a taken ENCODE adds to the trace, and it adds one whole pair. -/
theorem stepKeepsTheFramesPaired : Obligations.StepKeepsTheFramesPaired := by
  intro s t hs h
  obtain ⟨hidle, hout⟩ := hs
  obtain ⟨-, rfl⟩ | ⟨-, hp, -⟩ | ⟨-, hp, -⟩ | ⟨-, -, w, rest, -, he⟩ | ⟨-, -, -, rfl⟩ := step_cases h
  · exact ⟨rfl, hout⟩
  · simp [hidle] at hp
  · simp [hidle] at hp
  · exact exec_keeps_paired (s := { s with cmds := rest }) ⟨hidle, hout⟩ he
  · obtain ⟨ephase, eout⟩ := control_phase_out s
    exact ⟨ephase.trans hidle, by rwa [eout]⟩

/-- Every command completes (R125). -/
theorem exec_completes (i : Instr) (s : State) : ∃ t, exec i s = .next t := by
  obtain ⟨_, h⟩ | ⟨_, -, h⟩ := exec_cases i s <;> exact ⟨_, h⟩

theorem runList_cons {i : Instr} {s t : State} (h : exec i s = .next t) (is : List Instr) :
    runList (i :: is) s = runList is t := by
  rw [runList, h]

/-- A run of two lists is the run of the second from where the first ends (R38). -/
theorem runList_append {is : List Instr} {s u : State} (h : runList is s = .next u) (js : List Instr) :
    runList (is ++ js) s = runList js u := by
  induction is generalizing s with
  | nil =>
    cases h
    rfl
  | cons i is ih =>
    obtain ⟨v, hv⟩ := exec_completes i s
    rw [runList_cons hv] at h
    rw [List.cons_append, runList_cons hv, ih h]

/-- Every command list runs to its end (R125). -/
theorem runList_completes (is : List Instr) (s : State) : ∃ u, runList is s = .next u := by
  induction is generalizing s with
  | nil => exact ⟨s, rfl⟩
  | cons i is ih =>
    obtain ⟨t, ht⟩ := exec_completes i s
    rw [runList_cons ht]
    exact ih t

/-- Settles O31: the ENCODE runs from the state the list leaves. -/
theorem encodeSeesEveryEarlierCommand : Obligations.EncodeSeesEveryEarlierCommand := by
  intro is val s
  obtain ⟨u, hu⟩ := runList_completes is s
  exact ⟨u, _, _, _, hu, (runList_append hu _).trans (runList_cons (exec_encode val u) []), rfl, encode_out u⟩

/-! ## The commands the environment issues (R40, R57, R106, R136) -/

theorem decode_encode (i : Instr) : decode (encode i) = i := by
  unfold decode encode
  rw [Laws.opField_append, Laws.valField_append]
  cases i <;> rfl

theorem pairCommand_isUpdateOrNop (key value : Bytes) : (pairCommand key value).isUpdateOrNop = true := by
  unfold pairCommand
  split_ifs <;> rfl

theorem lineCommands_isUpdateOrNop {line : Bytes} {i : Instr} (h : i ∈ lineCommands line) : i.isUpdateOrNop = true := by
  obtain ⟨p, -, rfl⟩ := List.mem_map.mp h
  exact pairCommand_isUpdateOrNop p.1 p.2

theorem firingRest_updates_encode (val : Word) {is : List Instr} (h : ∀ i ∈ is, i.isUpdateOrNop = true) :
    firingRest ((is ++ [Instr.encode val]).map encode) := by
  induction is with
  | nil => exact .inl ⟨by rw [decode_encode]; rfl, rfl⟩
  | cons i is ih =>
    obtain ⟨hi, his⟩ := List.forall_mem_cons.mp h
    exact .inr ⟨by rwa [decode_encode], ih his⟩

/-- What a firing presents at the port is (update or NOP)* and then one ENCODE. -/
theorem firingRest_firingCommands (s : State) : firingRest (s.firingCommands.map encode) := by
  refine firingRest_updates_encode _ fun i hi => ?_
  obtain ⟨line, -, hline⟩ := List.mem_flatMap.mp hi
  exact lineCommands_isUpdateOrNop hline

/-- With its first command taken, a firing has ended or its rest is one of the same shape. -/
theorem firingRest_tail {w : CmdWord} {ws : List CmdWord} (h : firingRest (w :: ws)) : ws = [] ∨ firingRest ws :=
  h.imp And.right And.right

theorem control_environmentShaped {s : State} (h : s.cmds = []) : s.control.EnvironmentShaped := by
  obtain ⟨-, e⟩ | ⟨-, -, e⟩ | ⟨-, -, e⟩ := control_cases s <;> rw [e]
  · exact .inl h
  · refine .inr ⟨rfl, ?_⟩
    rw [State.fire_cmds, h, List.nil_append]
    exact firingRest_firingCommands s
  · exact .inl h

/-- Settles O36: a step takes the first command of a firing, or starts a firing with no command left, or leaves the port as
it was or empty. -/
theorem stepKeepsTheEnvironmentsShape : Obligations.StepKeepsTheEnvironmentsShape := by
  intro s t hs h
  obtain ⟨-, rfl⟩ | ⟨-, -, rfl⟩ | ⟨-, -, rfl⟩ | ⟨-, -, w, rest, hc, he⟩ | ⟨-, -, hc, rfl⟩ := step_cases h
  · exact .inl rfl
  · exact hs
  · exact hs
  · obtain ⟨hcmds, hloop⟩ := exec_cmds_loop he
    unfold State.EnvironmentShaped at hs ⊢
    rw [hc] at hs
    rw [hcmds, hloop]
    obtain hnil | ⟨hfiring, hrest⟩ := hs
    · simp at hnil
    · exact (firingRest_tail hrest).imp_right (⟨hfiring, ·⟩)
  · exact control_environmentShaped hc

end Sys2Proof.Machine
end

section
/-! Proofs about 30_encoding.md: the command word and its decoder, the assembler and the disassembler,
the frames a step hands over, the payload bytes, and the command port. -/

namespace Sys2Proof.Machine

/-! ## The command word (R45, R46, R56) -/

/-- Settles O2. -/
theorem decodeOfEncodeIsTheCommand : Obligations.DecodeOfEncodeIsTheCommand := decode_encode

theorem opField_append_valField (w : CmdWord) : opField w ++ valField w = w := by
  apply BitVec.eq_of_toNat_eq
  unfold opField valField
  rw [Laws.append_toNat, BitVec.extractLsb'_toNat, BitVec.extractLsb'_toNat, Nat.shiftRight_eq_div_pow,
    Nat.shiftRight_zero]
  omega

theorem encode_instrOf (op : BitVec 3) (val : Word) : encode (instrOf op val) = op ++ val := by
  obtain ⟨⟨n, hn⟩⟩ := op
  interval_cases n <;> rfl

theorem instrOf_op_val (i : Instr) : instrOf i.op i.val = i := by
  cases i <;> rfl

theorem encode_decode (w : CmdWord) : encode (decode w) = w :=
  (encode_instrOf _ _).trans (opField_append_valField w)

/-- Settles O3. -/
theorem encodeOfDecodeIsTheWord : Obligations.EncodeOfDecodeIsTheWord := encode_decode

/-- The mask `0x700000000` keeps the field `op` and nothing else. -/
theorem and_opMask (w : CmdWord) : w &&& 0x700000000#35 = opField w ++ 0#32 := by
  have hmask : 0x700000000#35 = 7#3 ++ 0#32 := rfl
  have hall : 7#3 = BitVec.allOnes 3 := rfl
  conv_lhs => rw [← opField_append_valField w, hmask]
  rw [BitVec.and_append, hall, BitVec.and_allOnes, BitVec.and_zero]

/-- A word that matches `op` under the mask decodes to the command of `op`, with its low 32 bits as operand (R46). -/
theorem decode_of_matches {w : CmdWord} (op : BitVec 3) (h : w &&& 0x700000000#35 = op ++ 0#32) :
    decode w = instrOf op (w.setWidth 32) := by
  have hop : opField w = op := by
    rw [and_opMask] at h
    rw [← Laws.opField_append (opField w) 0#32, h, Laws.opField_append]
  rw [decode, hop, valField, BitVec.setWidth_eq_extractLsb' (by decide)]

/-- Settles O1: each clause is the match under the mask for one opcode. -/
theorem everyWordSelectsItsTableRow : Obligations.EveryWordSelectsItsTableRow := fun _ =>
  ⟨decode_of_matches 0#3, decode_of_matches 1#3, decode_of_matches 2#3, decode_of_matches 3#3,
    decode_of_matches 4#3, decode_of_matches 5#3, decode_of_matches 6#3, decode_of_matches 7#3⟩

/-- Settles O4, by evaluation of the decoder. -/
theorem wordsOfTheTestVectorsDecode : Obligations.WordsOfTheTestVectorsDecode :=
  ⟨rfl, rfl, rfl, rfl, rfl, rfl, rfl, rfl⟩

/-! ## Decimal text (R60, R108) -/

theorem toNat_digit {d : Nat} (h : d < 10) : (BitVec.ofNat 8 (0x30 + d)).toNat = 0x30 + d :=
  BitVec.toNat_ofNat (0x30 + d) 8 ▸ Nat.mod_eq_of_lt (by omega)

theorem isDigit_digit {d : Nat} (h : d < 10) : isDigit (BitVec.ofNat 8 (0x30 + d)) = true := by
  rw [isDigit, toNat_digit h, Bool.and_eq_true, decide_eq_true_eq, decide_eq_true_eq]
  omega

theorem isDigit_of_mem_natText {b : Byte} (fuel n : Nat) (h : b ∈ natText fuel n) : isDigit b = true := by
  induction fuel generalizing n with
  | zero => simp [natText] at h
  | succ fuel ih =>
    rw [natText] at h
    split at h
    · rw [List.mem_singleton] at h
      rw [h]
      exact isDigit_digit ‹_›
    · rw [List.mem_append, List.mem_singleton] at h
      obtain hfront | rfl := h
      · exact ih _ hfront
      · exact isDigit_digit (Nat.mod_lt _ (by decide))

theorem natText_succ_ne_nil (fuel n : Nat) : natText (fuel + 1) n ≠ [] := by
  rw [natText]
  split <;> simp

/-- One more digit on the right: ten times the number, and the digit. -/
theorem digitsValue_snoc (ds : Bytes) {d : Nat} (h : d < 10) :
    digitsValue (ds ++ [BitVec.ofNat 8 (0x30 + d)]) = 10 * digitsValue ds + d := by
  rw [digitsValue, List.foldl_append, List.foldl_cons, List.foldl_nil, toNat_digit h, Nat.add_sub_cancel_left,
    digitsValue]

theorem digitsValue_natText {fuel n : Nat} (h : n < 10 ^ fuel) : digitsValue (natText fuel n) = n := by
  induction fuel generalizing n with
  | zero => exact (Nat.lt_one_iff.mp h).symm
  | succ fuel ih =>
    rw [natText]
    split
    next hn => simpa [digitsValue] using digitsValue_snoc [] hn
    next =>
      have hfront : n / 10 < 10 ^ fuel := Nat.div_lt_of_lt_mul (by rwa [← Nat.pow_succ'])
      rw [digitsValue_snoc _ (Nat.mod_lt _ (by decide)), ih hfront, Nat.div_add_mod]

theorem readDigits_natText {fuel n : Nat} (h : n < 10 ^ (fuel + 1)) : readDigits (natText (fuel + 1) n) = some n := by
  rw [readDigits, if_pos ⟨natText_succ_ne_nil fuel n, List.all_eq_true.mpr fun _ => isDigit_of_mem_natText _ _⟩,
    digitsValue_natText h]

theorem readInt_minus (ds : Bytes) : readInt (0x2D#8 :: ds) = (readDigits ds).map fun n : Nat => -(n : Int) := rfl

/-- A text of digits has no `-` in front. -/
theorem readInt_digits {ds : Bytes} (h : ∀ b ∈ ds, isDigit b = true) :
    readInt ds = (readDigits ds).map fun n : Nat => (n : Int) := by
  cases ds with
  | nil => rfl
  | cons b bs =>
    have hb : b ≠ 0x2D#8 := by
      rintro rfl
      exact absurd (h _ List.mem_cons_self) (by decide)
    rw [readInt, if_neg hb]

theorem readInt_intText {z : Int} (h : z.natAbs < 10 ^ 10) : readInt (intText z) = some z := by
  have hread : readDigits (natText 10 z.natAbs) = some z.natAbs := readDigits_natText h
  rw [intText]
  split
  · rw [readInt_minus, hread, Option.map_some]
    exact congrArg some (by omega)
  · rw [readInt_digits fun _ => isDigit_of_mem_natText _ _, hread, Option.map_some]
    exact congrArg some (by omega)

/-! ## The words of a line (R60) -/

/-- A byte that a mnemonic or an operand may have: it ends no word and opens no comment. -/
def isWordByte (b : Byte) : Bool := !isBlank b && b != 0x23#8

/-- A text that is one word of a line. -/
structure IsWord (s : Bytes) : Prop where
  ne_nil : s ≠ []
  bytes : ∀ b ∈ s, isWordByte b = true

theorem isWordByte_of_isDigit {b : Byte} (h : isDigit b = true) : isWordByte b = true := by
  have excluded {c : Byte} (hc : isDigit c = false) : b ≠ c := by
    rintro rfl
    simp [h] at hc
  simp [isWordByte, isBlank, excluded (c := 0x20#8) rfl, excluded (c := 0x09#8) rfl, excluded (c := 0x23#8) rfl]

theorem isWord_mnemonicText (i : Instr) : IsWord (mnemonicText i) := by
  constructor
  · cases i <;> simp [mnemonicText, ascii]
  · rw [← List.all_eq_true]
    cases i <;> rfl

theorem isWord_intText (z : Int) : IsWord (intText z) := by
  have hdigits : ∀ b ∈ natText 10 z.natAbs, isWordByte b = true := fun _ hb =>
    isWordByte_of_isDigit (isDigit_of_mem_natText _ _ hb)
  rw [intText]
  split
  · exact ⟨List.cons_ne_nil _ _, List.forall_mem_cons.mpr ⟨rfl, hdigits⟩⟩
  · exact ⟨natText_succ_ne_nil _ _, hdigits⟩

theorem wordsFrom_append {w : Bytes} (hw : ∀ b ∈ w, isWordByte b = true) (s : Bytes) :
    wordsFrom (w ++ s) = (w ++ (wordsFrom s).1, (wordsFrom s).2) := by
  induction w with
  | nil => rfl
  | cons b bs ih =>
    obtain ⟨hb, hbs⟩ := List.forall_mem_cons.mp hw
    have hblank : isBlank b = false := by simp_all [isWordByte]
    rw [List.cons_append, wordsFrom, ih hbs]
    simp [hblank]

theorem words_word {w : Bytes} (hw : IsWord w) : words w = [w] := by
  have h := wordsFrom_append hw.bytes []
  rw [List.append_nil] at h
  simp [words, h, wordsFrom, hw.ne_nil]

theorem words_word_space_word {w v : Bytes} (hw : IsWord w) (hv : IsWord v) : words (w ++ 0x20#8 :: v) = [w, v] := by
  have h := wordsFrom_append hv.bytes []
  rw [List.append_nil] at h
  simp [words, wordsFrom_append hw.bytes, wordsFrom, h, isBlank, hw.ne_nil, hv.ne_nil]

theorem stripComment_of_no_hash {s : Bytes} (h : ∀ b ∈ s, b ≠ 0x23#8) : stripComment s = s :=
  List.takeWhile_eq_self_iff.mpr fun b hb => by simpa using h b hb

theorem IsWord.no_hash {w : Bytes} (hw : IsWord w) : ∀ b ∈ w, b ≠ 0x23#8 := fun b hb => by
  have := hw.bytes b hb
  simp_all [isWordByte]

/-! ## The assembler on what the disassembler prints (R60, R62) -/

theorem ofMnemonic_mnemonicText (i : Instr) (val : Word) : ofMnemonic (mnemonicText i) val = some (instrOf i.op val) := by
  cases i <;> rfl

theorem op_instrOf_op (i : Instr) (val : Word) : (instrOf i.op val).op = i.op := by
  cases i <;> rfl

theorem ignoresOperand_instrOf_op (i : Instr) (val : Word) : ignoresOperand (instrOf i.op val) = ignoresOperand i := by
  cases i <;> rfl

/-- A command that ignores its operand, written alone, assembles with `val = 0`. -/
theorem assembleLine_mnemonic {i : Instr} (h : ignoresOperand i = true) :
    assembleLine (mnemonicText i) = .ok (some (encode (instrOf i.op 0#32))) := by
  have hi := isWord_mnemonicText i
  simp [assembleLine, stripComment_of_no_hash hi.no_hash, words_word hi, ofMnemonic_mnemonicText,
    ignoresOperand_instrOf_op, h]

theorem assembleLine_mnemonic_operand (i : Instr) {z : Int} (h : operandInRange z = true) :
    assembleLine (mnemonicText i ++ 0x20#8 :: intText z) =
      .ok (some (encode (instrOf i.op (BitVec.ofInt 32 z)))) := by
  have hi := isWord_mnemonicText i
  have hz := isWord_intText z
  have hhash : ∀ b ∈ mnemonicText i ++ 0x20#8 :: intText z, b ≠ 0x23#8 :=
    List.forall_mem_append.mpr ⟨hi.no_hash, List.forall_mem_cons.mpr ⟨by decide, hz.no_hash⟩⟩
  have hread : readInt (intText z) = some z := by
    simp only [operandInRange, Bool.and_eq_true, decide_eq_true_eq] at h
    exact readInt_intText (by omega)
  simp [assembleLine, stripComment_of_no_hash hhash, words_word_space_word hi hz, ofMnemonic_mnemonicText,
    op_instrOf_op, hread, h]

theorem operandInRange_toInt (val : Word) : operandInRange val.toInt = true := by
  simpa [operandInRange, rawSigned] using rawSigned_bounds val

theorem assembleLine_disassemble (w : CmdWord) : assembleLine (disassemble w) = .ok (some w) := by
  have hw : encode (instrOf (decode w).op (decode w).val) = w := by rw [instrOf_op_val, encode_decode]
  rw [disassemble]
  split
  next h =>
    obtain ⟨hignores, hval⟩ := Bool.and_eq_true_iff.mp h
    rw [assembleLine_mnemonic hignores, ← eq_of_beq hval, hw]
  next => rw [assembleLine_mnemonic_operand _ (operandInRange_toInt _), BitVec.ofInt_toInt, hw]

/-- Settles O5. -/
theorem assembleOfDisassembleIsTheWord : Obligations.AssembleOfDisassembleIsTheWord :=
  ⟨assembleLine_mnemonic (i := .nop 0#32) rfl, assembleLine_mnemonic (i := .encode 0#32) rfl,
    assembleLine_mnemonic (i := .rsv7 0#32) rfl, assembleLine_disassemble⟩

/-! ## The frames a step hands over (R49, R52) -/

theorem frameOf_wf (tag : FrameTag) (t : Telemetry) : (frameOf tag t).wf := by
  cases tag <;> exact ⟨rfl, Nat.le_of_ble_eq_true rfl⟩

theorem frameOf_isA_or_isB (tag : FrameTag) (t : Telemetry) : (frameOf tag t).isA ∨ (frameOf tag t).isB := by
  cases tag with
  | a => exact .inl (frameA_isA t)
  | b => exact .inr (frameB_isB t)

/-- What a step adds to the output trace are frames of the registers it finds. -/
theorem step_out {s t : State} (h : step s = .next t) :
    ∃ new, t.out = s.out ++ new ∧ ∀ x ∈ new, ∃ tag, x.frame = frameOf tag s.regs := by
  obtain ⟨-, rfl⟩ | ⟨-, -, rfl⟩ | ⟨-, -, rfl⟩ | ⟨-, -, w, rest, -, he⟩ | ⟨-, -, -, rfl⟩ := step_cases h
  · exact ⟨[], by simp⟩
  · exact ⟨_, s.answerA_out, List.forall_mem_singleton.mpr ⟨.a, rfl⟩⟩
  · exact ⟨_, s.answerB_out, List.forall_mem_singleton.mpr ⟨.b, rfl⟩⟩
  · obtain ⟨_, rfl⟩ | rfl := exec_next_cases he
    · exact ⟨[], by simp⟩
    · exact ⟨_, encode_out _, List.forall_mem_cons.mpr ⟨⟨.a, rfl⟩, List.forall_mem_singleton.mpr ⟨.b, rfl⟩⟩⟩
  · exact ⟨[], by simp [control_phase_out]⟩

/-- Settles O22. -/
theorem everyFrameHandedOverIsAOrB : Obligations.EveryFrameHandedOverIsAOrB := by
  intro s t h
  obtain ⟨new, hout, hnew⟩ := step_out h
  refine ⟨new, hout, fun x hx => ?_⟩
  obtain ⟨tag, hframe⟩ := hnew x hx
  rw [hframe]
  exact ⟨frameOf_wf tag _, frameOf_isA_or_isB tag _⟩

/-! ## The payload bytes (R53) -/

theorem toNat_byteOf (v : Word) : (byteOf v).toNat = v.toNat % 256 := by
  simp [byteOf]

/-- Reading the register as signed moves it by a multiple of 256. -/
theorem toNat_byteOf_eq_toInt_emod (v : Word) : ((byteOf v).toNat : Int) = v.toInt % 256 := by
  rw [toNat_byteOf, BitVec.toInt_eq_toNat_cond]
  split <;> omega

theorem toNat_flagByte (b : BitVec 1) : (flagByte b).toNat = b.toNat :=
  BitVec.toNat_setWidth_of_le (by decide)

/-- Settles O26. -/
theorem payloadBytesWrapModulo256 : Obligations.PayloadBytesWrapModulo256 :=
  ⟨toNat_byteOf_eq_toInt_emod, toNat_flagByte, by decide, by decide⟩

/-! ## The command port (R48) -/

theorem cmdReady_iff (rst : Bool) (s : State) : (portOut rst s).cmdReady = true ↔ rst = false ∧ s.phase = .idle := by
  cases rst with
  | true => simp [portOut]
  | false => cases hp : s.phase <;> simp [portOut, hp]

theorem portCycle_without_command {i : PortIn} {s : State} (hr : i.rst = false) (hp : s.phase = .idle)
    (hv : i.cmdValid = false) : portCycle i s = s := by
  rw [portCycle_idle hr hp, hv]
  rfl

/-- While an ENCODE is under way no cycle writes a register, answer or not (R161). -/
theorem portCycle_regs_of_busy {i : PortIn} {s : State} (hr : i.rst = false) (hp : s.phase ≠ .idle) :
    (portCycle i s).regs = s.regs := by
  cases ht : i.txDone with
  | false => rw [portCycle_waits hr hp ht]
  | true =>
    cases hphase : s.phase with
    | idle => exact absurd hphase hp
    | sendA => rw [portCycle_answers_a hr hphase ht, State.answered_regs]
    | sendB => rw [portCycle_answers_b hr hphase ht, State.answered_regs]

/-- Settles O50: a port that is not ready without reset has an ENCODE under way. -/
theorem portIsReadyOnlyWhenIdle : Obligations.PortIsReadyOnlyWhenIdle := by
  refine ⟨cmdReady_iff, fun i s hr h => ?_, fun _ _ => portCycle_without_command⟩
  by_cases hp : s.phase = .idle
  · have hv : i.cmdValid = false := h.resolve_left (by simp [(cmdReady_iff i.rst s).mpr ⟨hr, hp⟩])
    rw [portCycle_without_command hr hp hv]
  · exact portCycle_regs_of_busy hr hp

/-- A command other than ENCODE is taken with the effect of `exec`, since it completes (R48, R125). -/
theorem exec_eq_portTake {i : Instr} (h : i.isEncode = false) (s : State) : exec i s = .next (portTake i s) := by
  cases i with
  | encode val => cases h
  | _ => rfl

/-- Settles O51. -/
theorem portTakesUpdatesInOneCycle : Obligations.PortTakesUpdatesInOneCycle := by
  intro i s hr hp hv he
  rw [portCycle_idle hr hp, if_pos hv]
  exact exec_eq_portTake he s

end Sys2Proof.Machine
end

section
/-! Proofs about 40_update_ops.md: what each update writes, the two splits, and the laws over sequences of updates. -/

namespace Sys2Proof.Machine

/-! ## What each command writes (R65, R70 to R76) -/

/-- Every command but ENCODE is the write of its registers and nothing else (R65). -/
theorem exec_of_not_encode {i : Instr} (h : i.isEncode = false) (s : State) :
    exec i s = .next (s.setRegs (s.regs.afterCommand i)) := by
  cases i with
  | encode _ => cases h
  | _ => rfl

/-- The signed split in terms of the library's truncating division (R66). -/
theorem split_eq_tdiv_tmod (r : Int) : split r = (Int.tdiv r 1000, Int.tdiv (Int.tmod r 1000) 10) := by
  rw [split, tmod_eq]
  rfl

theorem bits15to8_eq (val : Word) : bits15to8 val = (val >>> 8).setWidth 8 :=
  BitVec.setWidth_ushiftRight_eq_extractLsb.symm

theorem bits7to0_eq (val : Word) : bits7to0 val = val.setWidth 8 :=
  (BitVec.setWidth_eq_extractLsb' (by decide)).symm

/-- The pair that UPD_V and UPD_VPV store for an operand (R66, R70, R71). -/
def voltagePair (val : Word) : Word × Word :=
  (BitVec.ofInt 32 (Int.tdiv val.toInt 1000), BitVec.ofInt 32 (Int.tdiv (Int.tmod val.toInt 1000) 10))

/-- The pair that UPD_PPV stores for an operand (R72). -/
def powerPair (val : Word) : Byte × Byte := ((val >>> 8).setWidth 8, val.setWidth 8)

/-- The triple that UPD_I stores for an operand (R73). -/
def currentTriple (val : Word) : BitVec 1 × Word × Word :=
  (if val.toInt < 0 then 1#1 else 0#1, BitVec.ofNat 32 (val.toInt.natAbs / 1000),
    BitVec.ofNat 32 (val.toInt.natAbs % 1000 / 10))

theorem afterCommand_updV (t : Telemetry) (val : Word) :
    t.afterCommand (.updV val) = t.putBatteryVoltage (voltagePair val).1 (voltagePair val).2 := by
  rw [Telemetry.afterCommand, split_eq_tdiv_tmod]
  rfl

theorem afterCommand_updVpv (t : Telemetry) (val : Word) :
    t.afterCommand (.updVpv val) = t.putPanelVoltage (voltagePair val).1 (voltagePair val).2 := by
  rw [Telemetry.afterCommand, split_eq_tdiv_tmod]
  rfl

theorem afterCommand_updPpv (t : Telemetry) (val : Word) :
    t.afterCommand (.updPpv val) = t.putPanelPower (powerPair val).1 (powerPair val).2 := by
  rw [Telemetry.afterCommand, bits15to8_eq, bits7to0_eq]
  rfl

theorem afterCommand_updI (t : Telemetry) (val : Word) :
    t.afterCommand (.updI val) =
      t.putPanelCurrent (currentTriple val).1 (currentTriple val).2.1 (currentTriple val).2.2 := rfl

/-- Settles O6: a key that is none of the five falls through every test of the dispatch. -/
theorem nopChangesNothing : Obligations.NopChangesNothing := by
  refine ⟨fun val s => ⟨decode_encode (.nop val), exec_nop val s⟩, fun key value hkey => ?_⟩
  simp only [List.mem_cons, List.not_mem_nil, or_false, not_or] at hkey
  obtain ⟨hV, hVpv, hPpv, hI, hCs⟩ := hkey
  exact (if_neg hV).trans <| (if_neg hVpv).trans <| (if_neg hPpv).trans <| (if_neg hI).trans (if_neg hCs)

/-- Settles O7. -/
theorem reservedCodeChangesNothing : Obligations.ReservedCodeChangesNothing :=
  fun val s => ⟨decode_encode (.rsv7 val), exec_rsv7 val s⟩

/-- Settles O8. -/
theorem updVWritesBatteryVoltage : Obligations.UpdVWritesBatteryVoltage := by
  refine fun val s => ⟨decode_encode (.updV val), fun _ => rfl, ?_⟩
  rw [exec_of_not_encode rfl, afterCommand_updV]
  rfl

/-- Settles O9. -/
theorem updVpvWritesPanelVoltage : Obligations.UpdVpvWritesPanelVoltage := by
  refine fun val s => ⟨decode_encode (.updVpv val), fun _ => rfl, ?_⟩
  rw [exec_of_not_encode rfl, afterCommand_updVpv]
  rfl

/-- The two bytes of a power that fits 16 bits are the power (R72, R80). -/
theorem powerPair_recombines {val : Word} (h : val.toNat ≤ 65535) :
    256 * (powerPair val).1.toNat + (powerPair val).2.toNat = val.toNat := by
  simp only [powerPair, BitVec.toNat_setWidth, BitVec.toNat_ushiftRight, Nat.shiftRight_eq_div_pow]
  omega

/-- Settles O10. -/
theorem updPpvWritesPanelPower : Obligations.UpdPpvWritesPanelPower := by
  refine fun val s => ⟨decode_encode (.updPpv val), fun _ => rfl, ?_, powerPair_recombines⟩
  rw [exec_of_not_encode rfl, afterCommand_updPpv]
  rfl

/-- Settles O11. -/
theorem updIWritesPanelCurrent : Obligations.UpdIWritesPanelCurrent := by
  refine fun val s => ⟨decode_encode (.updI val), fun _ => rfl, ?_⟩
  rw [exec_of_not_encode rfl, afterCommand_updI]
  rfl

/-- Settles O12. -/
theorem updCsStoresTheCodeVerbatim : Obligations.UpdCsStoresTheCodeVerbatim :=
  fun val _ => ⟨decode_encode (.updCs val), fun _ => rfl, rfl⟩

/-! ## The two splits (R66 to R68) -/

/-- The signed split loses the last decimal digit only: that is what the two truncating divisions leave (R67). -/
theorem split_recombines (r : Int) : 1000 * (split r).1 + 10 * (split r).2 + Int.tmod r 10 = r := by
  have hwhole := Int.mul_tdiv_add_tmod r 1000
  have hfrac := Int.mul_tdiv_add_tmod (Int.tmod r 1000) 10
  have hdigit : Int.tmod (Int.tmod r 1000) 10 = Int.tmod r 10 := Int.tmod_tmod_of_dvd r (by decide)
  rw [split_eq_tdiv_tmod]
  dsimp only
  omega

theorem split_mul_nonneg (r : Int) : 0 ≤ (split r).1 * (split r).2 := by
  rw [split_eq]
  split
  · exact Int.mul_nonneg (by omega) (by omega)
  · exact Int.mul_nonneg_of_nonpos_of_nonpos (by omega) (by omega)

/-- What R67 says of a stored pair: it is the split itself, with no wrap. -/
theorem stored_split_recombines {val whole frac : Word} (hw : whole = tcWord (split (rawSigned val)).1)
    (hf : frac = tcWord (split (rawSigned val)).2) :
    -99 ≤ frac.toInt ∧ frac.toInt ≤ 99 ∧ 0 ≤ whole.toInt * frac.toInt ∧
      1000 * whole.toInt + 10 * frac.toInt + Int.tmod val.toInt 10 = val.toInt := by
  obtain ⟨hwhole, hfrac⟩ := split_bounds val
  rw [hw, hf, toInt_tcWord (by omega) (by omega), toInt_tcWord (by omega) (by omega)]
  exact ⟨hfrac.1, hfrac.2, split_mul_nonneg _, split_recombines _⟩

/-- Settles O23: both commands store the same split, in the registers of their quantity. -/
theorem voltagePairIsTheRawValueLessItsLastDigit : Obligations.VoltagePairIsTheRawValueLessItsLastDigit :=
  fun _ _ => ⟨⟨_, rfl, stored_split_recombines rfl rfl⟩, ⟨_, rfl, stored_split_recombines rfl rfl⟩⟩

/-- Settles O25. -/
theorem magnitudeSplitAgreesWithSignedSplit : Obligations.MagnitudeSplitAgreesWithSignedSplit := by
  refine fun r => ⟨rfl, rfl, rfl, magFrac_le r, fun hr => ?_, fun hr => ?_⟩
  · rw [split_eq, magWhole_eq, magFrac_eq, if_pos hr, if_pos hr, if_pos hr]
  · have hneg : ¬ 0 ≤ r := by omega
    rw [split_eq, magWhole_eq, magFrac_eq, if_neg hneg, if_neg hneg, if_neg hneg]

/-! ## Two updates in a row (R77, R78) -/

/-- The later command of the same quantity wins; commands of no quantity write nothing (R78). -/
theorem afterCommand_overwrites {i j : Instr} (h : i.quantity = j.quantity) (t : Telemetry) :
    (t.afterCommand i).afterCommand j = t.afterCommand j := by
  cases i with
  | updV _ => cases j with
    | updV _ => rfl
    | _ => simp [Instr.quantity] at h
  | updVpv _ => cases j with
    | updVpv _ => rfl
    | _ => simp [Instr.quantity] at h
  | updPpv _ => cases j with
    | updPpv _ => rfl
    | _ => simp [Instr.quantity] at h
  | updI _ => cases j with
    | updI _ => rfl
    | _ => simp [Instr.quantity] at h
  | updCs _ => cases j with
    | updCs _ => rfl
    | _ => simp [Instr.quantity] at h
  | _ => rfl

/-- Commands of different quantities write different registers (R78). -/
theorem afterCommand_comm {i j : Instr} (h : i.quantity ≠ j.quantity) (t : Telemetry) :
    (t.afterCommand i).afterCommand j = (t.afterCommand j).afterCommand i := by
  cases i with
  | updV _ => cases j with
    | updV _ => exact absurd rfl h
    | _ => rfl
  | updVpv _ => cases j with
    | updVpv _ => exact absurd rfl h
    | _ => rfl
  | updPpv _ => cases j with
    | updPpv _ => exact absurd rfl h
    | _ => rfl
  | updI _ => cases j with
    | updI _ => exact absurd rfl h
    | _ => rfl
  | updCs _ => cases j with
    | updCs _ => exact absurd rfl h
    | _ => rfl
  | _ => rfl

/-- Settles O27: a command is one of its own quantity, so the second execution writes what is there. -/
theorem repeatingAnUpdateChangesNothing : Obligations.RepeatingAnUpdateChangesNothing := by
  intro i s hi
  refine ⟨_, exec_of_not_encode hi s, ?_⟩
  rw [exec_of_not_encode hi, State.setRegs_regs, afterCommand_overwrites rfl]
  rfl

theorem not_encode_of_quantity {i : Instr} (h : i.quantity ≠ none) : i.isEncode = false := by
  cases i with
  | encode _ => exact absurd rfl h
  | _ => rfl

/-- Two commands other than ENCODE write their registers one after the other. -/
theorem runList_pair {i j : Instr} (hi : i.isEncode = false) (hj : j.isEncode = false) (s : State) :
    runList [i, j] s = .next (s.setRegs ((s.regs.afterCommand i).afterCommand j)) := by
  rw [runList_cons (exec_of_not_encode hi s), runList_cons (exec_of_not_encode hj _)]
  rfl

/-- A command that does nothing in any state commutes with every command. -/
theorem runList_comm_of_inert {i : Instr} (h : ∀ s, exec i s = .next s) (j : Instr) (s : State) :
    runList [i, j] s = runList [j, i] s := by
  obtain ⟨t, ht⟩ := exec_completes j s
  rw [runList_cons (h s), runList_cons ht, runList_cons ht, runList_cons (h t)]

/-- Settles O29. -/
theorem updatesOfDifferentQuantitiesCommute : Obligations.UpdatesOfDifferentQuantitiesCommute := by
  refine ⟨fun i j s hi hj hij => ?_, fun val j s => ?_, fun i j s hi hij => ?_⟩
  · have ei := not_encode_of_quantity hi
    have ej := not_encode_of_quantity hj
    refine ⟨_, runList_pair ei ej s, ?_⟩
    rw [runList_pair ej ei, afterCommand_comm hij]
  · exact ⟨runList_comm_of_inert (exec_nop val) j s, runList_comm_of_inert (exec_rsv7 val) j s⟩
  · have ej := not_encode_of_quantity (hij ▸ hi)
    rw [runList_pair (not_encode_of_quantity hi) ej, afterCommand_overwrites hij,
      runList_cons (exec_of_not_encode ej s)]
    rfl

/-! ## Any sequence of commands (R39, R65, R77) -/

theorem runList_regs {is : List Instr} {s t : State} (h : runList is s = .next t) :
    t.regs = is.foldl Telemetry.afterCommand s.regs := by
  induction is generalizing s with
  | nil =>
    cases h
    rfl
  | cons i is ih =>
    obtain ⟨u, hu⟩ := exec_completes i s
    rw [runList_cons hu] at h
    rw [ih h, exec_regs hu, List.foldl_cons]

theorem lastOperand_append_singleton (pick : Instr → Option Word) (is : List Instr) (i : Instr) :
    lastOperand pick (is ++ [i]) = (pick i).or (lastOperand pick is) := by
  rw [lastOperand, List.filterMap_append, List.getLast?_append]
  cases h : pick i <;> simp [h, lastOperand]

/-- If the commands that `pick` selects set a part of the registers to `f` of their operand, and no other command touches
that part, then after any list it is `f` of the last operand selected (R77). -/
theorem foldl_afterCommand_eq_of_lastOperand {α : Type} {part : Telemetry → α}
    {pick : Instr → Option Word} {f : Word → α}
    (h : ∀ t i, part (t.afterCommand i) = match pick i with | some val => f val | none => part t)
    (is : List Instr) (t : Telemetry) :
    part (is.foldl Telemetry.afterCommand t) =
      match lastOperand pick is with | some val => f val | none => part t := by
  induction is using List.reverseRecOn with
  | nil => rfl
  | append_singleton is i ih =>
    rw [List.foldl_append, List.foldl_cons, List.foldl_nil, h, ih, lastOperand_append_singleton]
    cases pick i <;> rfl

theorem afterCommand_batteryVoltage (t : Telemetry) (i : Instr) :
    ((t.afterCommand i).bvWhole, (t.afterCommand i).bvFrac) =
      match operandV i with | some val => voltagePair val | none => (t.bvWhole, t.bvFrac) := by
  cases i with
  | updV val => rw [afterCommand_updV]; rfl
  | _ => rfl

theorem afterCommand_panelVoltage (t : Telemetry) (i : Instr) :
    ((t.afterCommand i).pvWhole, (t.afterCommand i).pvFrac) =
      match operandVpv i with | some val => voltagePair val | none => (t.pvWhole, t.pvFrac) := by
  cases i with
  | updVpv val => rw [afterCommand_updVpv]; rfl
  | _ => rfl

theorem afterCommand_panelPower (t : Telemetry) (i : Instr) :
    ((t.afterCommand i).ppMsb, (t.afterCommand i).ppLsb) =
      match operandPpv i with | some val => powerPair val | none => (t.ppMsb, t.ppLsb) := by
  cases i with
  | updPpv val => rw [afterCommand_updPpv]; rfl
  | _ => rfl

theorem afterCommand_panelCurrent (t : Telemetry) (i : Instr) :
    ((t.afterCommand i).pcSign, (t.afterCommand i).pcWhole, (t.afterCommand i).pcFrac) =
      match operandI i with | some val => currentTriple val | none => (t.pcSign, t.pcWhole, t.pcFrac) := by
  cases i with
  | updI val => rw [afterCommand_updI]; rfl
  | _ => rfl

theorem afterCommand_chargeStatus (t : Telemetry) (i : Instr) :
    (t.afterCommand i).cs = match operandCs i with | some val => val | none => t.cs := by
  cases i <;> rfl

/-- Settles O28: each of the five parts of the registers is set by one update alone. -/
theorem lastUpdateDecidesTheRegisters : Obligations.LastUpdateDecidesTheRegisters := by
  intro is s
  obtain ⟨t, ht⟩ := runList_completes is s
  refine ⟨t, ht, ?_⟩
  rw [runList_regs ht]
  exact ⟨
    foldl_afterCommand_eq_of_lastOperand (part := fun t => (t.bvWhole, t.bvFrac))
      afterCommand_batteryVoltage is s.regs,
    foldl_afterCommand_eq_of_lastOperand (part := fun t => (t.pvWhole, t.pvFrac))
      afterCommand_panelVoltage is s.regs,
    foldl_afterCommand_eq_of_lastOperand (part := fun t => (t.ppMsb, t.ppLsb))
      afterCommand_panelPower is s.regs,
    foldl_afterCommand_eq_of_lastOperand (part := fun t => (t.pcSign, t.pcWhole, t.pcFrac))
      afterCommand_panelCurrent is s.regs,
    foldl_afterCommand_eq_of_lastOperand afterCommand_chargeStatus is s.regs⟩

end Sys2Proof.Machine
end

section
/-! Proofs about 41_encode_op.md: the frames an ENCODE hands over and what it leaves unchanged, the bytes a receiver reads,
the driver's answers, and their reports on the diagnostic channel. -/

namespace Sys2Proof.Machine

/-! ## What an ENCODE hands over and leaves unchanged (R85 to R87, R91, R92) -/

theorem byteOf_eq_setWidth (v : Word) : byteOf v = v.setWidth 8 :=
  (BitVec.setWidth_eq_extractLsb' (by decide)).symm

/-- Frame A with its payload written as truncations of the registers (R53, R86). -/
theorem frameA_eq_setWidth (t : Telemetry) :
    frameA t = { id := 0x02C#11, ide := 0#1, rtr := 0#1, dlc := 7#4,
                 data := [t.pvWhole.setWidth 8, t.pvFrac.setWidth 8, t.ppMsb, t.ppLsb,
                          t.bvWhole.setWidth 8, t.bvFrac.setWidth 8, t.cs.setWidth 8] } := by
  simp only [frameA, byteOf_eq_setWidth]

/-- Frame B with its payload written as truncations of the registers (R53, R87). -/
theorem frameB_eq_setWidth (t : Telemetry) :
    frameB t = { id := 0x02D#11, ide := 0#1, rtr := 0#1, dlc := 3#4,
                 data := [t.pcSign.setWidth 8, t.pcWhole.setWidth 8, t.pcFrac.setWidth 8] } := by
  simp only [frameB, byteOf_eq_setWidth]
  rfl

/-- ENCODE reports the answer to Frame A and then the answer to Frame B (R91). -/
theorem encode_diag (s : State) : s.takeEncode.answerA.answerB.diag =
    s.diag ++ diagOut [.txResult .a (txAnswer s.draws), .txResult .b (txAnswer (s.draws + 1))] := by
  rw [← List.singleton_append, diagOut_append]
  simp

/-- The whole state an ENCODE leaves: two attempts, their reports, the time they take and the draws they use. -/
theorem encode_eq (s : State) : s.takeEncode.answerA.answerB =
    { s with
      phase := .idle
      out := s.out ++ [{ frame := frameA s.regs, ok := txAnswer s.draws },
                       { frame := frameB s.regs, ok := txAnswer (s.draws + 1) }]
      diag := s.diag ++ diagOut [.txResult .a (txAnswer s.draws), .txResult .b (txAnswer (s.draws + 1))]
      clock := clockAfter (clockAfter s.clock (txTime s.draws)) (txTime (s.draws + 1))
      draws := s.draws + 2 } := by
  rw [← encode_out, ← encode_diag]
  rfl

/-- Settles O13. -/
theorem encodeHandsOverFrameAThenFrameB : Obligations.EncodeHandsOverFrameAThenFrameB := by
  intro val s
  have hexec := exec_encode val s
  rw [encode_eq, frameA_eq_setWidth, frameB_eq_setWidth] at hexec
  exact ⟨decode_encode (.encode val), _, _, _, _, hexec⟩

/-- An ENCODE at the end of a list runs from the state the list leaves (R35). -/
theorem runList_append_encode {is : List Instr} {s u : State} (h : runList is s = .next u) (val : Word) :
    runList (is ++ [.encode val]) s = .next u.takeEncode.answerA.answerB :=
  (runList_append h _).trans (runList_cons (exec_encode val u) [])

/-! ## Consecutive ENCODEs (R36, R92) -/

/-- A command that writes no quantity and is not ENCODE is NOP or RSV7, and does nothing. -/
theorem exec_of_inert {i : Instr} (hq : i.quantity = none) (he : i.isEncode = false) (s : State) :
    exec i s = .next s := by
  cases i with
  | nop val => exact exec_nop val s
  | rsv7 val => exact exec_rsv7 val s
  | encode _ => cases he
  | _ => cases hq

theorem runList_of_inert {is : List Instr} (h : ∀ i ∈ is, i.quantity = none ∧ i.isEncode = false) (s : State) :
    runList is s = .next s := by
  induction is with
  | nil => rfl
  | cons i is ih =>
    obtain ⟨⟨hq, he⟩, his⟩ := List.forall_mem_cons.mp h
    rw [runList_cons (exec_of_inert hq he s), ih his]

/-- Settles O30: the second ENCODE runs from the state the first one leaves, with the registers of the start. -/
theorem consecutiveEncodesHandOverEqualFrames : Obligations.ConsecutiveEncodesHandOverEqualFrames := by
  intro a b between s hbetween
  have hrun : runList (.encode a :: between) s = .next s.takeEncode.answerA.answerB :=
    (runList_cons (exec_encode a s) between).trans (runList_of_inert hbetween _)
  have hout := encode_out s.takeEncode.answerA.answerB
  rw [encode_out s, List.append_assoc] at hout
  exact ⟨_, _, _, _, _, runList_append_encode hrun b, rfl, hout⟩

/-! ## Quantities never updated (R26, R96) -/

theorem lastOperand_eq_none {pick : Instr → Option Word} {is : List Instr} (h : ∀ i ∈ is, pick i = none) :
    lastOperand pick is = none := by
  rw [lastOperand, List.filterMap_eq_nil_iff.mpr h, List.getLast?_nil]

/-- Settles O32: a quantity without a last operand keeps its reset value, whose bytes are zero. -/
theorem neverUpdatedQuantitiesAreSentAsZero : Obligations.NeverUpdatedQuantitiesAreSentAsZero := by
  refine ⟨fun is val => ?_, fun val => ⟨_, _, _, exec_encode val _, encode_out State.reset⟩⟩
  obtain ⟨u, hu, bv, pv, pp, pc, cs⟩ := lastUpdateDecidesTheRegisters is State.reset
  refine ⟨u, _, _, _, _, _, _, _, _, _, _, _, _, _, hu, runList_append_encode hu val, rfl, rfl, encode_out u,
    fun h => ?_, fun h => ?_, fun h => ?_, fun h => ?_, fun h => ?_⟩
  · rw [lastOperand_eq_none h] at pv
    obtain ⟨hwhole, hfrac⟩ := Prod.mk.inj pv
    exact ⟨congrArg byteOf hwhole, congrArg byteOf hfrac⟩
  · rw [lastOperand_eq_none h] at pp
    exact Prod.mk.inj pp
  · rw [lastOperand_eq_none h] at bv
    obtain ⟨hwhole, hfrac⟩ := Prod.mk.inj bv
    exact ⟨congrArg byteOf hwhole, congrArg byteOf hfrac⟩
  · rw [lastOperand_eq_none h] at cs
    exact congrArg byteOf cs
  · rw [lastOperand_eq_none h] at pc
    obtain ⟨hsign, hparts⟩ := Prod.mk.inj pc
    obtain ⟨hwhole, hfrac⟩ := Prod.mk.inj hparts
    exact ⟨congrArg flagByte hsign, congrArg byteOf hwhole, congrArg byteOf hfrac⟩

/-! ## What a receiver reads (R80, R97) -/

/-- A list without ENCODE writes its registers one command after the other, and nothing else (R65). -/
theorem runList_of_no_encode {is : List Instr} (h : ∀ i ∈ is, i.isEncode = false) (s : State) :
    runList is s = .next (s.setRegs (is.foldl Telemetry.afterCommand s.regs)) := by
  induction is generalizing s with
  | nil => rfl
  | cons i is ih =>
    obtain ⟨hi, his⟩ := List.forall_mem_cons.mp h
    rw [runList_cons (exec_of_not_encode hi s), ih his]
    rfl

/-- The split of an operand below `2^31` is the unsigned one: it has no sign to carry. -/
theorem split_rawSigned_of_lt {val : Word} (h : val.toNat < 2 ^ 31) :
    split (rawSigned val) = (((val.toNat / 1000 : Nat) : Int), ((val.toNat % 1000 / 10 : Nat) : Int)) := by
  have hraw : rawSigned val = val.toNat := BitVec.toInt_eq_toNat_of_lt (by omega)
  rw [hraw, split_eq, if_pos (Int.natCast_nonneg _)]
  rfl

/-- Up to 255999 millivolts both parts of a voltage fit their bytes (R80). -/
theorem voltage_bytes_recombine {val : Word} (h : val.toNat ≤ 255999) :
    1000 * (byteOf (tcWord (split (rawSigned val)).1)).toNat + 10 * (byteOf (tcWord (split (rawSigned val)).2)).toNat
      = val.toNat - val.toNat % 10 := by
  rw [split_rawSigned_of_lt (by omega), toNat_byteOf, toNat_byteOf, toNat_tcWord (by omega), toNat_tcWord (by omega)]
  omega

theorem power_bytes_recombine {val : Word} (h : val.toNat ≤ 65535) :
    256 * (bits15to8 val).toNat + (bits7to0 val).toNat = val.toNat := by
  rw [bits15to8_eq, bits7to0_eq]
  exact powerPair_recombines h

/-- Up to 255999 milliamps of either sign both parts of the magnitude fit their bytes (R80). -/
theorem current_bytes_recombine {val : Word} (hl : -255999 ≤ val.toInt) (hu : val.toInt ≤ 255999) :
    (1 - 2 * ((flagByte (signFlag (rawSigned val))).toNat : Int)) *
        (1000 * (byteOf (tcWord (magWhole (rawSigned val)))).toNat +
          10 * (byteOf (tcWord (magFrac (rawSigned val)))).toNat)
      = val.toInt - Int.tmod val.toInt 10 := by
  have hwhole : magWhole (rawSigned val) < 256 := by
    have e := magWhole_eq (rawSigned val)
    unfold rawSigned at *
    split at e <;> omega
  have hfrac : magFrac (rawSigned val) < 256 := (magFrac_le _).trans_lt (by decide)
  rw [toNat_flagByte, toNat_byteOf, toNat_byteOf, toNat_tcWord_magWhole, toNat_tcWord_magFrac,
    Nat.mod_eq_of_lt hwhole, Nat.mod_eq_of_lt hfrac]
  exact eq_sub_of_add_eq (magnitude_split_recombines val.toInt)

/-- Settles O33: the bytes are those of the five updates' own registers, and each group recombines. -/
theorem receiverReconstructsValuesInRange : Obligations.ReceiverReconstructsValuesInRange := by
  intro v vpv ppv i cs e s hv hvpv hppv hcs hl hu
  have hrun := runList_of_no_encode (is := [.updV v, .updVpv vpv, .updPpv ppv, .updI i, .updCs cs])
    (by simp [Instr.isEncode]) s
  exact ⟨_, _, _, _, _, _, _, _, _, _, _, _, _, runList_append_encode hrun e, encode_out _,
    voltage_bytes_recombine hvpv, power_bytes_recombine hppv, voltage_bytes_recombine hv,
    (toNat_byteOf cs).trans (Nat.mod_eq_of_lt (by omega)), current_bytes_recombine hl hu⟩

/-! ## The driver's answers (R89, R92, R128) -/

/-- Settles O54: only ENCODE draws an answer, and it stores it nowhere but beside its frames. -/
theorem driverAnswersChangeNoFrame : Obligations.DriverAnswersChangeNoFrame := by
  intro i s n
  cases he : i.isEncode with
  | false =>
    exact ⟨_, _, exec_of_not_encode he s, exec_of_not_encode he _, rfl, rfl, rfl, rfl, rfl, rfl, rfl⟩
  | true =>
    obtain ⟨val, rfl⟩ := (isEncode_iff i).mp he
    refine ⟨_, _, exec_encode val s, exec_encode val _, rfl, rfl, rfl, rfl, rfl, rfl, ?_⟩
    rw [encode_out, encode_out, List.map_append, List.map_append]
    rfl

/-! ## Every attempt is reported once (R91, R113, R144) -/

/-- From `s` to `t` the new attempts are exactly those that the new diagnostic events report. -/
def AttemptsReported (s t : State) : Prop :=
  ∃ attempts events, t.out = s.out ++ attempts ∧ t.diag = s.diag ++ diagOut events ∧
    events.filterMap (DiagEvent.reported s.regs) = attempts

theorem attemptsReported_of_traces_eq {s t : State} (hout : t.out = s.out) (hdiag : t.diag = s.diag) :
    AttemptsReported s t :=
  ⟨[], [], by simp [hout], by simp [hdiag, diagOut], rfl⟩

theorem attemptsReported_exec {i : Instr} {s t : State} (h : exec i s = .next t) : AttemptsReported s t := by
  obtain ⟨_, rfl⟩ | rfl := exec_next_cases h
  · exact attemptsReported_of_traces_eq rfl rfl
  · exact ⟨_, _, encode_out s, encode_diag s, rfl⟩

/-- The events of a firing are the front end's, and those report no attempt. -/
theorem attemptsReported_control (s : State) : AttemptsReported s s.control := by
  obtain ⟨-, e⟩ | ⟨-, -, e⟩ | ⟨-, -, e⟩ := control_cases s <;> rw [e]
  · exact attemptsReported_of_traces_eq rfl rfl
  · exact ⟨[], _, by simp, s.fire_diag, reported_lineDiag _ _⟩
  · exact attemptsReported_of_traces_eq rfl rfl

/-- Settles O57: an answer, an ENCODE and the control loop each report what they add to the output trace. -/
theorem everyAttemptIsReportedOnce : Obligations.EveryAttemptIsReportedOnce := by
  intro s t h
  obtain ⟨-, rfl⟩ | ⟨-, -, rfl⟩ | ⟨-, -, rfl⟩ | ⟨-, -, w, rest, -, he⟩ | ⟨-, -, -, rfl⟩ := step_cases h
  · exact attemptsReported_of_traces_eq s.restart_out s.restart_diag
  · exact ⟨_, _, s.answerA_out, s.answerA_diag, rfl⟩
  · exact ⟨_, _, s.answerB_out, s.answerB_diag, rfl⟩
  · exact attemptsReported_exec (s := { s with cmds := rest }) he
  · exact attemptsReported_control s

end Sys2Proof.Machine
end

section
/-! Proofs about 42_line_frontend.md: the tokenizer, the conversion of a value token, the command of a pair and of a line,
draining the line buffer, and the diagnostic events of a firing. -/

namespace Sys2Proof.Machine

/-! ## The tokenizer (R103 to R105) -/

theorem cutAt_of_notMem {d : Byte} {bs : Bytes} (h : d ∉ bs) : cutAt d bs = (bs, none) := by
  induction bs with
  | nil => rfl
  | cons b bs ih =>
    obtain ⟨hb, hbs⟩ := List.ne_and_not_mem_of_not_mem_cons h
    rw [cutAt, if_neg (Ne.symm hb), ih hbs]

theorem cutAt_append_cons {d : Byte} {bs : Bytes} (h : d ∉ bs) (rest : Bytes) :
    cutAt d (bs ++ d :: rest) = (bs, some rest) := by
  induction bs with
  | nil => exact if_pos rfl
  | cons b bs ih =>
    obtain ⟨hb, hbs⟩ := List.ne_and_not_mem_of_not_mem_cons h
    rw [List.cons_append, cutAt, if_neg (Ne.symm hb), ih hbs]

theorem length_lt_of_cutAt {d : Byte} {s before after : Bytes} (h : cutAt d s = (before, some after)) :
    after.length < s.length := by
  induction s generalizing before with
  | nil => simp [cutAt] at h
  | cons b bs ih =>
    rw [cutAt] at h
    split at h
    · obtain ⟨-, rfl⟩ := h
      exact Nat.lt_succ_self _
    · cases hcut : cutAt d bs with
      | mk front back =>
        rw [hcut] at h
        obtain ⟨-, rfl⟩ := h
        exact (ih hcut).trans (Nat.lt_succ_self _)

/-- More rounds than bytes are enough: the result does not depend on how many more. -/
theorem tokenizeFuel_congr {m n : Nat} {s : Bytes} (hm : s.length < m) (hn : s.length < n) :
    tokenizeFuel m s = tokenizeFuel n s := by
  induction m generalizing n s with
  | zero => exact absurd hm (Nat.not_lt_zero _)
  | succ m ih =>
    obtain ⟨n, rfl⟩ := Nat.exists_eq_add_one_of_ne_zero (Nat.ne_zero_of_lt hn)
    rw [tokenizeFuel, tokenizeFuel]
    split
    next => rfl
    next key rest hkey =>
      split
      next => rfl
      next value rest' hvalue =>
        have := length_lt_of_cutAt hkey
        have := length_lt_of_cutAt hvalue
        rw [ih (n := n) (by omega) (by omega)]

/-- A key with no TAB after it yields no pair. -/
theorem tokenize_key {k : Bytes} (hk : tabByte ∉ k) : tokenize k = [] := by
  rw [tokenize, tokenizeFuel, cutAt_of_notMem hk]

theorem tokenize_pair {k v : Bytes} (hk : tabByte ∉ k) (hv : tabByte ∉ v) :
    tokenize (k ++ tabByte :: v) = [(k, v)] := by
  simp only [tokenize, tokenizeFuel, cutAt_append_cons hk, cutAt_of_notMem hv]

theorem tokenize_pair_append {k v : Bytes} (hk : tabByte ∉ k) (hv : tabByte ∉ v) (rest : Bytes) :
    tokenize (k ++ tabByte :: (v ++ tabByte :: rest)) = (k, v) :: tokenize rest := by
  have hfuel : rest.length < (k ++ tabByte :: (v ++ tabByte :: rest)).length := by
    simp only [List.length_append, List.length_cons]
    omega
  rw [tokenize, tokenizeFuel]
  simp only [cutAt_append_cons hk, cutAt_append_cons hv]
  rw [tokenizeFuel_congr hfuel (Nat.lt_succ_self _), tokenize]

theorem pairsLine_cons_cons (k v : Bytes) (p : Bytes × Bytes) (more : List (Bytes × Bytes)) :
    pairsLine ((k, v) :: p :: more) = k ++ tabByte :: (v ++ tabByte :: pairsLine (p :: more)) := by
  rw [pairsLine, List.append_assoc, List.cons_append]

/-- Settles O39, by induction on the pairs as `pairsLine` writes them. -/
theorem tokenizerExtractsExactlyThePairs : Obligations.TokenizerExtractsExactlyThePairs := by
  intro ps hne hps
  induction ps using pairsLine.induct with
  | case1 => exact absurd rfl hne
  | case2 k v =>
    obtain ⟨hk, hv⟩ := List.forall_mem_singleton.mp hps
    refine ⟨tokenize_pair hk hv, ?_⟩
    rw [pairsLine, List.append_assoc, List.cons_append, tokenize_pair_append hk hv, tokenize_key List.not_mem_nil]
  | case3 k v p more ih =>
    obtain ⟨⟨hk, hv⟩, hmore⟩ := List.forall_mem_cons.mp hps
    obtain ⟨hline, htab⟩ := ih (List.cons_ne_nil _ _) hmore
    rw [pairsLine_cons_cons]
    constructor
    · rw [tokenize_pair_append hk hv, hline]
    · simp only [List.append_assoc, List.cons_append]
      rw [tokenize_pair_append hk hv, htab]

/-- Settles O40: each row is one of the three equations of the tokenizer, or a pair in front of one. -/
theorem tokenizerEdgeCases : Obligations.TokenizerEdgeCases := by
  intro k v k' v' hk hv hk' hv'
  have hnil : tabByte ∉ ([] : Bytes) := List.not_mem_nil
  have then_pair {value : Bytes} (h : tabByte ∉ value) :
      tokenize (k ++ tabByte :: (value ++ tabByte :: (k' ++ tabByte :: v'))) = [(k, value), (k', v')] := by
    rw [tokenize_pair_append hk h, tokenize_pair hk' hv']
  have then_key {key : Bytes} (h : tabByte ∉ key) : tokenize (k ++ tabByte :: (v ++ tabByte :: key)) = [(k, v)] := by
    rw [tokenize_pair_append hk hv, tokenize_key h]
  exact ⟨tokenize_key hnil, tokenize_key hk, tokenize_pair hk hv, then_key hnil, then_pair hv, then_key hk',
    tokenize_pair hk hnil, tokenize_pair hnil hv, tokenize_pair hnil hnil, then_pair hnil⟩

/-! ## Reading a decimal token (R108) -/

theorem isDigit_iff (b : Byte) : isDigit b = true ↔ 0x30 ≤ b.toNat ∧ b.toNat ≤ 0x39 := by
  simp [isDigit]

/-- What `readInt` reads is digits, at least one, with or without a minus sign in front. -/
theorem exists_digits_of_readInt {token : Bytes} {z : Int} (h : readInt token = some z) :
    ∃ digits : Bytes, digits ≠ [] ∧ (∀ d ∈ digits, isDigit d = true) ∧
      (token = digits ∨ token = 0x2D#8 :: digits) := by
  have of_readDigits {ds : Bytes} {f : Nat → Int} (h : (readDigits ds).map f = some z) :
      ds ≠ [] ∧ ∀ d ∈ ds, isDigit d = true := by
    rw [readDigits] at h
    split at h
    next hds => exact ⟨hds.1, List.all_eq_true.mp hds.2⟩
    next => simp at h
  cases token with
  | nil => simp [readInt] at h
  | cons b bs =>
    rw [readInt] at h
    split at h
    next hb =>
      obtain ⟨hne, hall⟩ := of_readDigits h
      exact ⟨bs, hne, hall, .inr (by rw [hb])⟩
    next =>
      obtain ⟨hne, hall⟩ := of_readDigits h
      exact ⟨b :: bs, hne, hall, .inl rfl⟩

/-- The digits of `k`, as `natText width` writes them, after some leading zeros. -/
def paddedText (zeros width k : Nat) : Bytes := List.replicate zeros 0x30#8 ++ natText width k

theorem digitsValue_leading_zeros (zeros : Nat) (ds : Bytes) :
    digitsValue (List.replicate zeros 0x30#8 ++ ds) = digitsValue ds := by
  induction zeros with
  | zero => rfl
  | succ zeros ih => exact ih

theorem isDigit_of_mem_paddedText {b : Byte} {zeros width k : Nat} (h : b ∈ paddedText zeros width k) :
    isDigit b = true := by
  obtain hzero | hdigit := List.mem_append.mp h
  · rw [List.eq_of_mem_replicate hzero]
    rfl
  · exact isDigit_of_mem_natText _ _ hdigit

theorem readDigits_paddedText (zeros : Nat) {width k : Nat} (h : k < 10 ^ (width + 1)) :
    readDigits (paddedText zeros (width + 1) k) = some k := by
  have hne : paddedText zeros (width + 1) k ≠ [] := List.append_ne_nil_of_right_ne_nil _ (natText_succ_ne_nil _ _)
  rw [readDigits, if_pos ⟨hne, List.all_eq_true.mpr fun _ => isDigit_of_mem_paddedText⟩, paddedText,
    digitsValue_leading_zeros, digitsValue_natText h]

theorem readInt_paddedText (zeros : Nat) {width k : Nat} (h : k < 10 ^ (width + 1)) :
    readInt (paddedText zeros (width + 1) k) = some (k : Int) := by
  rw [readInt_digits fun _ => isDigit_of_mem_paddedText, readDigits_paddedText zeros h, Option.map_some]

theorem readInt_minus_paddedText (zeros : Nat) {width k : Nat} (h : k < 10 ^ (width + 1)) :
    readInt (0x2D#8 :: paddedText zeros (width + 1) k) = some (-(k : Int)) := by
  rw [readInt_minus, readDigits_paddedText zeros h, Option.map_some]

/-! ## The conversion of each class of token (R108, R109) -/

theorem operandInRange_iff (z : Int) : operandInRange z = true ↔ -2147483648 ≤ z ∧ z ≤ 2147483647 := by
  simp [operandInRange]

theorem toInt_of_numeric {token : Bytes} {z : Int} (h : readInt token = some z)
    (hz : -2147483648 ≤ z ∧ z ≤ 2147483647) : toInt token = BitVec.ofInt 32 z := by
  simp only [toInt, classify, h, (operandInRange_iff z).mpr hz, if_true]

theorem toInt_of_out_of_range {token : Bytes} {z : Int} (h : readInt token = some z)
    (hz : ¬ (-2147483648 ≤ z ∧ z ≤ 2147483647)) : toInt token = Config.toIntMixed token := by
  simp only [toInt, classify, h, if_neg (mt (operandInRange_iff z).mp hz)]

/-- A token that is no number converts by the parameter if it has a digit, and to zero if it has none. -/
theorem toInt_of_not_number {token : Bytes} (h : readInt token = none) :
    toInt token = if token.any isDigit then Config.toIntMixed token else 0#32 := by
  simp only [toInt, classify, h]
  cases token.any isDigit <;> rfl

/-- Settles O41: the texts are read as the number they write, and that is in range. -/
theorem numericTokensConvertToTheirNumber : Obligations.NumericTokensConvertToTheirNumber := by
  refine ⟨fun z hl hu => ?_, fun zeros k hk => ?_, fun zeros k hk => ?_, rfl⟩
  · exact toInt_of_numeric (readInt_intText (by omega)) ⟨hl, hu⟩
  · rw [← BitVec.ofInt_natCast]
    exact toInt_of_numeric (readInt_paddedText zeros (by omega)) (by omega)
  · exact toInt_of_numeric (readInt_minus_paddedText zeros (by omega)) (by omega)

/-- A text of no digits has room for no number but zero. -/
theorem exists_width_eq_succ {width k : Nat} (h : k < 10 ^ width) (hk : 0 < k) : ∃ w, width = w + 1 := by
  cases width with
  | zero => exact absurd h (by omega)
  | succ w => exact ⟨w, rfl⟩

/-- Settles O55: such a token is not read as a number, or is read as one out of range. -/
theorem mixedTokensConvertByTheParameter : Obligations.MixedTokensConvertByTheParameter := by
  refine ⟨fun token hdigit hnot => ?_, fun zeros width k hwidth hk => ?_, fun zeros width k hwidth hk => ?_⟩
  · have hread : readInt token = none := by
      refine Option.eq_none_iff_forall_ne_some.mpr fun z hz => hnot ?_
      simpa only [isDigit_iff] using exists_digits_of_readInt hz
    have hany : token.any isDigit = true := by simpa only [List.any_eq_true, isDigit_iff] using hdigit
    rw [toInt_of_not_number hread, if_pos hany]
  · obtain ⟨w, rfl⟩ := exists_width_eq_succ hwidth (by omega)
    exact toInt_of_out_of_range (readInt_paddedText zeros hwidth) (by omega)
  · obtain ⟨w, rfl⟩ := exists_width_eq_succ hwidth (by omega)
    exact toInt_of_out_of_range (readInt_minus_paddedText zeros hwidth) (by omega)

theorem toInt_of_no_digit {token : Bytes} (h : ∀ b ∈ token, isDigit b = false) : toInt token = 0#32 := by
  have hread : readInt token = none := by
    refine Option.eq_none_iff_forall_ne_some.mpr fun z hz => ?_
    obtain ⟨digits, hne, hdigits, htoken⟩ := exists_digits_of_readInt hz
    obtain ⟨d, hd⟩ := List.exists_mem_of_ne_nil _ hne
    have hmem : d ∈ token := by
      obtain rfl | rfl := htoken
      · exact hd
      · exact List.mem_cons_of_mem _ hd
    exact Bool.false_ne_true ((h d hmem).symm.trans (hdigits d hd))
  rw [toInt_of_not_number hread, List.any_eq_false.mpr fun b hb => by simp [h b hb], if_neg Bool.false_ne_true]

/-! ## The command of a pair and of a line (R106, R109 to R112) -/

/-- Settles O42: zero is split into zeros, whole and hundredths, high byte and low byte. -/
theorem malformedTokenOverwritesWithZero : Obligations.MalformedTokenOverwritesWithZero := by
  intro token s h
  have hzero : toInt token = 0#32 :=
    toInt_of_no_digit fun b hb => Bool.eq_false_iff.mpr (mt (isDigit_iff b).mp (h b hb))
  have hV : pairCommand keyV token = .updV (toInt token) := rfl
  have hVpv : pairCommand keyVpv token = .updVpv (toInt token) := rfl
  have hPpv : pairCommand keyPpv token = .updPpv (toInt token) := rfl
  have hI : pairCommand keyI token = .updI (toInt token) := rfl
  have hCs : pairCommand keyCs token = .updCs (toInt token) := rfl
  rw [hV, hVpv, hPpv, hI, hCs, hzero]
  exact ⟨rfl, rfl, rfl, rfl, rfl, rfl⟩

/-- Settles O43: the pair's command is NOP (O6). -/
theorem otherKeysAreIgnored : Obligations.OtherKeysAreIgnored := by
  intro key value s hkey
  refine ⟨?_, fun hdiag => ?_⟩
  · rw [nopChangesNothing.2 key value hkey, exec_nop]
  · have hrecognised : isRecognised key = false := decide_eq_false hkey
    rw [pairDiag, hrecognised, if_neg Bool.false_ne_true, if_neg hdiag]

/-- Settles O44: the commands of a line are a map over its pairs, and a well-formed line has the pairs it was written
from (O39). -/
theorem oneCommandPerPair : Obligations.OneCommandPerPair := by
  refine ⟨fun line => ⟨rfl, List.length_map .., fun _ => lineCommands_isUpdateOrNop⟩, fun ps hne hps => ?_⟩
  obtain ⟨hline, htab⟩ := tokenizerExtractsExactlyThePairs ps hne hps
  rw [lineCommands, lineCommands, hline, htab]
  exact ⟨rfl, rfl⟩

/-! ## Draining the line buffer (R102) -/

/-- The lines, each followed by LF, and then the rest are the buffer, and hold no other LF. -/
structure CutsAtLineFeeds (buffer : Bytes) (lines : List Bytes) (rest : Bytes) : Prop where
  joins : (lines.flatMap fun line => line ++ [lfByte]) ++ rest = buffer
  lines_no_lf : ∀ line ∈ lines, lfByte ∉ line
  rest_no_lf : lfByte ∉ rest

theorem drainLines_cutsAtLineFeeds (buffer : Bytes) :
    CutsAtLineFeeds buffer (drainLines buffer).1 (drainLines buffer).2 := by
  induction buffer with
  | nil => exact ⟨rfl, by simp [drainLines], List.not_mem_nil⟩
  | cons b bs ih =>
    rw [drainLines]
    generalize drainLines bs = drained at ih
    obtain ⟨lines, rest⟩ := drained
    obtain ⟨rfl, hlines, hrest⟩ := ih
    dsimp only at hlines hrest ⊢
    split
    next hb => exact ⟨by simp [hb], List.forall_mem_cons.mpr ⟨List.not_mem_nil, hlines⟩, hrest⟩
    next hb =>
      have no_lf {bytes : Bytes} : lfByte ∉ bytes → lfByte ∉ b :: bytes :=
        List.not_mem_cons_of_ne_of_not_mem (Ne.symm hb)
      cases lines with
      | nil => exact ⟨rfl, hlines, no_lf hrest⟩
      | cons line more =>
        obtain ⟨hline, hmore⟩ := List.forall_mem_cons.mp hlines
        exact ⟨by simp, List.forall_mem_cons.mpr ⟨no_lf hline, hmore⟩, hrest⟩

/-- Settles O45. -/
theorem drainCutsTheBufferAtLineFeeds : Obligations.DrainCutsTheBufferAtLineFeeds := fun buffer =>
  have h := drainLines_cutsAtLineFeeds buffer
  ⟨h.joins, h.lines_no_lf, h.rest_no_lf⟩

/-! ## The diagnostic events of a firing (R110, R113, R144) -/

theorem gateDue_of_elapsed {s : State} (hle : s.anchor ≤ s.clock) (h : 33 ≤ s.clock - s.anchor) :
    s.gateDue = true := by
  rw [State.gateDue, elapsed, if_pos hle]
  exact decide_eq_true h

/-- With nothing to execute, a Due gate makes the control loop fire (R131, R136). -/
theorem step_of_gateDue {s : State} (hr : s.rst = false) (hp : s.phase = .idle) (hc : s.cmds = [])
    (hl : s.loop = .polling) (hdue : s.gateDue = true) : step s = .next s.fire := by
  simp [step, State.control, hr, hp, hc, hl, hdue]

theorem fire_diag_eq_lineEvents (s : State) :
    s.fire.diag = s.diag ++ if Config.diagEn then s.drained.flatMap lineEvents else [] := by
  rw [State.fire_diag, funext lineDiag_eq, diagOut]

/-- Settles O56. -/
theorem firingEmitsFrontEndDiagnostics : Obligations.FiringEmitsFrontEndDiagnostics := by
  intro s hr hp hc hl hle h
  refine ⟨s.fire, step_of_gateDue hr hp hc hl (gateDue_of_elapsed hle h), fire_diag_eq_lineEvents s, fun hshort => ?_⟩
  rw [fire_diag_eq_lineEvents, s.drained_of_short hshort]

end Sys2Proof.Machine
end

section
/-! Proofs about 60_exceptions.md: completion of every step, the time of an ENCODE, the period gate, a whole firing, the
frame port, and the diagnostic channel. -/

namespace Sys2Proof.Machine

/-! ## One equation per agent that a step moves (R38, R48, R131, R155) -/

theorem step_of_rst {s : State} (hr : s.rst = true) : step s = .next s.restart := by
  simp [step, hr]

theorem step_of_sendA {s : State} (hr : s.rst = false) (hp : s.phase = .sendA) : step s = .next s.answerA := by
  simp [step, hr, hp]

theorem step_of_sendB {s : State} (hr : s.rst = false) (hp : s.phase = .sendB) : step s = .next s.answerB := by
  simp [step, hr, hp]

theorem step_of_no_command {s : State} (hr : s.rst = false) (hp : s.phase = .idle) (hc : s.cmds = []) :
    step s = .next s.control := by
  simp [step, hr, hp, hc]

/-- Every step completes, since every command does (R125). -/
theorem step_completes (s : State) : ∃ t, step s = .next t := by
  cases hr : s.rst with
  | true => exact ⟨_, step_of_rst hr⟩
  | false =>
    cases hp : s.phase with
    | sendA => exact ⟨_, step_of_sendA hr hp⟩
    | sendB => exact ⟨_, step_of_sendB hr hp⟩
    | idle =>
      cases hc : s.cmds with
      | nil => exact ⟨_, step_of_no_command hr hp hc⟩
      | cons w rest =>
        rw [stepExecutesTheDecodedCommand s w rest hr hp hc]
        exact exec_completes _ _

/-- Settles O16. -/
theorem everyCommandAndEveryStepCompletes : Obligations.EveryCommandAndEveryStepCompletes :=
  ⟨exec_completes, step_completes⟩

/-! ## The time of an ENCODE, and the clock (R137, R139, R140, R170) -/

/-- Two stretches of time after each other move the clock by their sum. -/
theorem clockAfter_clockAfter (t d e : Nat) : clockAfter (clockAfter t d) e = clockAfter t (d + e) := by
  rw [clockAfter, clockAfter, clockAfter, Nat.mod_add_mod, Nat.add_assoc]

/-- ENCODE holds the control loop for the times of its two attempts and no more. -/
theorem encode_clock (s : State) : s.takeEncode.answerA.answerB.clock =
    clockAfter s.clock (txTime s.draws + txTime (s.draws + 1)) := by
  rw [← clockAfter_clockAfter]
  rfl

/-- Settles O14. -/
theorem encodeTakesAtMostTwoTimeouts : Obligations.EncodeTakesAtMostTwoTimeouts := by
  intro val s
  refine ⟨_, _, _, txTime s.draws, txTime (s.draws + 1), exec_encode val s, encode_out s, rfl, rfl, rfl, rfl,
    Nat.add_le_add (txTime_le _) (txTime_le _), ?_⟩
  rw [encode_clock, clockAfter, Nat.mod_mod, Nat.add_assoc]

theorem exec_keeps_clockReadings {i : Instr} {s t : State} (hs : s.ClockReadings) (h : exec i s = .next t) :
    t.ClockReadings := by
  obtain ⟨_, rfl⟩ | rfl := exec_next_cases h
  · exact hs
  · exact ⟨clockAfter_lt _ _, hs.2⟩

theorem control_keeps_clockReadings {s : State} (hs : s.ClockReadings) : s.control.ClockReadings := by
  obtain ⟨-, e⟩ | ⟨-, -, e⟩ | ⟨-, -, e⟩ := control_cases s <;> rw [e]
  · exact ⟨hs.1, hs.1⟩
  · exact hs
  · exact ⟨clockAfter_lt _ _, hs.2⟩

/-- Settles O37: the clock is only ever moved by `clockAfter` or set by a restart, and the anchor only ever set to a clock
reading. -/
theorem stepKeepsClockReadings : Obligations.StepKeepsClockReadings := by
  intro s t hs h
  obtain ⟨-, rfl⟩ | ⟨-, -, rfl⟩ | ⟨-, -, rfl⟩ | ⟨-, -, w, rest, -, he⟩ | ⟨-, -, -, rfl⟩ := step_cases h
  · have hreading := Nat.mod_lt (Config.clockAtReset s.draws) (Nat.two_pow_pos Config.clockW)
    exact ⟨hreading, hreading⟩
  · exact ⟨clockAfter_lt _ _, hs.2⟩
  · exact ⟨clockAfter_lt _ _, hs.2⟩
  · exact exec_keeps_clockReadings (s := { s with cmds := rest }) hs he
  · exact control_keeps_clockReadings hs

/-! ## The period gate (R102, R135 to R137) -/

theorem gateDue_eq_false_of_elapsed {s : State} (hle : s.anchor ≤ s.clock) (h : s.clock - s.anchor < 33) :
    s.gateDue = false := by
  rw [State.gateDue, elapsed, if_pos hle]
  exact decide_eq_false (Nat.not_le_of_lt h)

/-- With nothing to execute, an Idle gate makes the control loop poll (R135). -/
theorem step_of_gateIdle {s : State} (hr : s.rst = false) (hp : s.phase = .idle) (hc : s.cmds = [])
    (hl : s.loop = .polling) (hidle : s.gateDue = false) : step s = .next s.poll := by
  rw [step_of_no_command hr hp hc]
  simp [State.control, hl, hidle]

/-- With all commands of a firing executed, the control loop resets the anchor (R137). -/
theorem step_of_firing {s : State} (hr : s.rst = false) (hp : s.phase = .idle) (hc : s.cmds = [])
    (hl : s.loop = .firing) : step s = .next s.reanchor := by
  rw [step_of_no_command hr hp hc]
  simp [State.control, hl]

/-- Settles O46. -/
theorem idleGateIssuesNothing : Obligations.IdleGateIssuesNothing := by
  intro s hr hp hc hl hle h
  exact ⟨s.poll, _, step_of_gateIdle hr hp hc hl (gateDue_eq_false_of_elapsed hle h), hc, rfl, rfl, rfl, rfl, hl, rfl⟩

/-- Settles O48: no time has passed since the anchor. -/
theorem firingEndsByResettingTheAnchor : Obligations.FiringEndsByResettingTheAnchor := by
  intro s hr hp hc hl
  have hidle : s.reanchor.gateDue = false := gateDue_eq_false_of_elapsed le_rfl (by simp)
  exact ⟨s.reanchor, step_of_firing hr hp hc hl, rfl, rfl, rfl, hidle, rfl, rfl, hc⟩

theorem map_decode_map_encode (is : List Instr) : (is.map encode).map decode = is := by
  rw [List.map_map, show decode ∘ encode = id from funext decode_encode, List.map_id]

/-- With nothing waiting before, the words at the port after a firing begins are its commands (R136). -/
theorem fire_cmds_decode {s : State} (hc : s.cmds = []) :
    s.fire.cmds.map decode = s.drained.flatMap lineCommands ++ [.encode 0#32] := by
  rw [State.fire_cmds, hc, List.nil_append, map_decode_map_encode]
  rfl

/-- Settles O47. -/
theorem dueGateDrainsAndIssuesOneEncode : Obligations.DueGateDrainsAndIssuesOneEncode := by
  intro s hr hp hc hl hle h
  refine ⟨s.fire, step_of_gateDue hr hp hc hl (gateDue_of_elapsed hle h), rfl, rfl, rfl, rfl, fire_cmds_decode hc,
    fun hshort => ?_⟩
  rw [← s.drained_of_short hshort]
  exact fire_cmds_decode hc

/-! ## A whole firing (R89, R131, R136, R137, R162) -/

theorem steps_succ {s t : State} (h : step s = .next t) (n : Nat) : steps (n + 1) s = steps n t := by
  rw [steps, h]

/-- A step at the ready port executes the command whose word is the oldest there. -/
theorem step_of_encoded_command {s : State} {i : Instr} {rest : List CmdWord} (hr : s.rst = false)
    (hp : s.phase = .idle) (hc : s.cmds = encode i :: rest) : step s = exec i { s with cmds := rest } := by
  rw [stepExecutesTheDecodedCommand s _ rest hr hp hc, decode_encode]

/-- At the ready port the words of a list without ENCODE are taken one per step, and leave its registers. -/
theorem steps_of_updates {is : List Instr} (his : ∀ i ∈ is, i.isEncode = false) {s : State} {rest : List CmdWord}
    (hr : s.rst = false) (hp : s.phase = .idle) (hc : s.cmds = is.map encode ++ rest) (n : Nat) :
    steps (is.length + n) s =
      steps n { s with cmds := rest, regs := is.foldl Telemetry.afterCommand s.regs } := by
  induction is generalizing s with
  | nil =>
    rw [List.map_nil, List.nil_append] at hc
    rw [List.length_nil, Nat.zero_add, ← hc, List.foldl_nil]
  | cons i is ih =>
    obtain ⟨hi, his⟩ := List.forall_mem_cons.mp his
    have hstep := (step_of_encoded_command hr hp hc).trans (exec_of_not_encode hi _)
    rw [List.length_cons, Nat.add_right_comm, steps_succ hstep]
    exact ih his hr hp rfl

theorem not_encode_of_isUpdateOrNop {i : Instr} (h : i.isUpdateOrNop = true) : i.isEncode = false := by
  cases i with
  | encode _ => cases h
  | _ => rfl

/-- No drained line issues an ENCODE (R57, R106). -/
theorem not_encode_of_mem_drained (s : State) : ∀ i ∈ s.drained.flatMap lineCommands, i.isEncode = false := by
  intro i hi
  obtain ⟨line, -, hline⟩ := List.mem_flatMap.mp hi
  exact not_encode_of_isUpdateOrNop (lineCommands_isUpdateOrNop hline)

/-- The state in which a firing has executed the commands of its drained lines, and only its ENCODE is left. -/
def State.drainedLinesExecuted (s : State) : State :=
  { s.fire with
    cmds := []
    regs := (s.drained.flatMap lineCommands).foldl Telemetry.afterCommand s.regs }

/-- A whole firing: its commands from the drained lines, the ENCODE, the end of the firing. -/
theorem steps_of_firing {s : State} (hr : s.rst = false) (hp : s.phase = .idle) (hc : s.cmds = [])
    (hl : s.loop = .polling) (hdue : s.gateDue = true) :
    steps ((s.drained.flatMap lineCommands).length + 3) s =
      .next s.drainedLinesExecuted.takeEncode.answerA.answerB.reanchor := by
  have hcmds : s.fire.cmds = (s.drained.flatMap lineCommands).map encode ++ [encode (.encode 0#32)] := by
    rw [State.fire_cmds, hc, List.nil_append, State.firingCommands, List.map_append]
    rfl
  have hencode := (step_of_encoded_command (i := .encode 0#32) (rest := [])
    (s := { s.drainedLinesExecuted with cmds := [encode (.encode 0#32)] }) hr hp rfl).trans (exec_encode _ _)
  have hend := step_of_firing (s := s.drainedLinesExecuted.takeEncode.answerA.answerB) hr rfl rfl rfl
  calc steps ((s.drained.flatMap lineCommands).length + 3) s
      = steps ((s.drained.flatMap lineCommands).length + 2) s.fire :=
        steps_succ (step_of_gateDue hr hp hc hl hdue) _
    _ = steps 2 { s.drainedLinesExecuted with cmds := [encode (.encode 0#32)] } :=
        steps_of_updates (s := s.fire) (not_encode_of_mem_drained s) hr hp hcmds 2
    _ = steps 1 s.drainedLinesExecuted.takeEncode.answerA.answerB := steps_succ hencode 1
    _ = .next s.drainedLinesExecuted.takeEncode.answerA.answerB.reanchor := steps_succ hend 0

/-- Settles O49: the run of the drained commands leaves the registers from which the firing's ENCODE builds its frames. -/
theorem firingDrainsThenEncodesThenReanchors : Obligations.FiringDrainsThenEncodesThenReanchors := by
  intro s hr hp hc hl hdue
  have hrun := runList_of_no_encode (not_encode_of_mem_drained s) s
  have hsteps := steps_of_firing hr hp hc hl hdue
  refine ⟨_, _, _, _, hrun, hsteps, rfl, encode_out s.drainedLinesExecuted, rfl, rfl, rfl, rfl, rfl, fun hshort => ?_⟩
  rw [← s.drained_of_short hshort]
  exact ⟨hrun, hsteps⟩

/-! ## The frame port (R24, R48, R142, R155) -/

theorem txFrame_of_sendA {s : State} (hp : s.phase = .sendA) : (portOut false s).txFrame = some (frameA s.regs) := by
  simp [portOut, hp]

theorem txFrame_of_sendB {s : State} (hp : s.phase = .sendB) : (portOut false s).txFrame = some (frameB s.regs) := by
  simp [portOut, hp]

theorem txFrame_eq_none_iff (rst : Bool) (s : State) :
    (portOut rst s).txFrame = none ↔ rst = true ∨ s.phase = .idle := by
  cases rst with
  | true => simp [portOut]
  | false => cases hp : s.phase <;> simp [portOut, hp]

/-- A frame at the port is that of the attempt under way. -/
theorem txFrame_eq_some {rst : Bool} {s : State} {f : Frame} (h : (portOut rst s).txFrame = some f) :
    rst = false ∧ ((s.phase = .sendA ∧ f = frameA s.regs) ∨ (s.phase = .sendB ∧ f = frameB s.regs)) := by
  cases rst with
  | true => cases h
  | false =>
    cases hp : s.phase with
    | idle => simp [(txFrame_eq_none_iff false s).mpr (.inr hp)] at h
    | sendA =>
      rw [txFrame_of_sendA hp] at h
      exact ⟨rfl, .inl ⟨rfl, (Option.some.inj h).symm⟩⟩
    | sendB =>
      rw [txFrame_of_sendB hp] at h
      exact ⟨rfl, .inr ⟨rfl, (Option.some.inj h).symm⟩⟩

/-- The driver's answer appends exactly the frame at the port, and writes no register. -/
theorem portCycle_answered {i : PortIn} {s : State} {f : Frame} (hf : (portOut i.rst s).txFrame = some f)
    (ht : i.txDone = true) :
    (portCycle i s).out = s.out ++ [{ frame := f, ok := i.txOk }] ∧ (portCycle i s).regs = s.regs := by
  obtain ⟨hr, ⟨hp, rfl⟩ | ⟨hp, rfl⟩⟩ := txFrame_eq_some hf
  · rw [portCycle_answers_a hr hp ht]
    exact ⟨rfl, rfl⟩
  · rw [portCycle_answers_b hr hp ht]
    exact ⟨rfl, rfl⟩

/-- Taking a command appends nothing: an ENCODE's frames wait for their answers. -/
theorem portTake_out (i : Instr) (s : State) : (portTake i s).out = s.out := by
  cases i <;> rfl

theorem portCycle_out_without_frame {i : PortIn} {s : State} (h : (portOut i.rst s).txFrame = none) :
    (portCycle i s).out = s.out := by
  cases hr : i.rst with
  | true => rw [portCycle_reset s hr, State.restart_out]
  | false =>
    have hp : s.phase = .idle := ((txFrame_eq_none_iff _ s).mp h).resolve_left (by simp [hr])
    rw [portCycle_idle hr hp]
    split
    · exact portTake_out _ s
    · rfl

theorem portCycle_out_without_answer {i : PortIn} {s : State} (ht : i.txDone = false) :
    (portCycle i s).out = s.out := by
  by_cases h : (portOut i.rst s).txFrame = none
  · exact portCycle_out_without_frame h
  · rw [txFrame_eq_none_iff, not_or, Bool.not_eq_true] at h
    rw [portCycle_waits h.1 h.2 ht]

/-- Settles O58. -/
theorem framePortCarriesTheFrameUnderWay : Obligations.FramePortCarriesTheFrameUnderWay := by
  intro s
  rw [← frameA_eq_setWidth, ← frameB_eq_setWidth]
  exact ⟨rfl, fun hp => (txFrame_eq_none_iff false s).mpr (.inr hp), txFrame_of_sendA, txFrame_of_sendB,
    fun _ hr hp ht => portCycle_waits hr hp ht, fun _ _ => portCycle_answered,
    fun _ h => h.elim portCycle_out_without_frame portCycle_out_without_answer⟩

/-! ## Nothing reads the diagnostic channel back (R144) -/

/-- Two outcomes are next states that differ at most in the diagnostic trace. -/
def SameButDiag (o o' : Host.Outcome State Fault Refusal) : Prop :=
  ∃ t d, o = .next t ∧ o' = .next { t with diag := d }

theorem exec_sameButDiag (i : Instr) (s : State) (d : List DiagEvent) :
    SameButDiag (exec i s) (exec i { s with diag := d }) := by
  cases he : i.isEncode with
  | false => exact ⟨_, d, exec_of_not_encode he s, exec_of_not_encode he _⟩
  | true =>
    obtain ⟨val, rfl⟩ := (isEncode_iff i).mp he
    exact ⟨_, _, exec_encode val s, exec_encode val _⟩

/-- The control loop looks at where it stands and at the gate only. -/
theorem step_sameButDiag_of_no_command {s : State} (hr : s.rst = false) (hp : s.phase = .idle) (hc : s.cmds = [])
    (d : List DiagEvent) : SameButDiag (step s) (step { s with diag := d }) := by
  obtain ⟨hl, -⟩ | ⟨hl, hdue, -⟩ | ⟨hl, hidle, -⟩ := control_cases s
  · exact ⟨_, _, step_of_firing hr hp hc hl, step_of_firing (s := { s with diag := d }) hr hp hc hl⟩
  · exact ⟨_, _, step_of_gateDue hr hp hc hl hdue, step_of_gateDue (s := { s with diag := d }) hr hp hc hl hdue⟩
  · exact ⟨_, _, step_of_gateIdle hr hp hc hl hidle, step_of_gateIdle (s := { s with diag := d }) hr hp hc hl hidle⟩

/-- Settles O53: the step moves the same agent in both states. -/
theorem diagnosticsInfluenceNothing : Obligations.DiagnosticsInfluenceNothing := by
  intro s d
  change SameButDiag (step s) (step { s with diag := d })
  obtain ⟨t, ht⟩ := step_completes s
  obtain ⟨hr, -⟩ | ⟨hr, hp, -⟩ | ⟨hr, hp, -⟩ | ⟨hr, hp, w, rest, hc, -⟩ | ⟨hr, hp, hc, -⟩ := step_cases ht
  · exact ⟨_, _, step_of_rst hr, step_of_rst (s := { s with diag := d }) hr⟩
  · exact ⟨_, _, step_of_sendA hr hp, step_of_sendA (s := { s with diag := d }) hr hp⟩
  · exact ⟨_, _, step_of_sendB hr hp, step_of_sendB (s := { s with diag := d }) hr hp⟩
  · rw [stepExecutesTheDecodedCommand s w rest hr hp hc,
      stepExecutesTheDecodedCommand { s with diag := d } w rest hr hp hc]
    exact exec_sameButDiag (decode w) { s with cmds := rest } d
  · exact step_sameButDiag_of_no_command hr hp hc d

end Sys2Proof.Machine
end

section
/-! Proofs about 70_reset_and_hazards.md: the restart by the reset input, at the step and at the port, the reset registers
restored by commands, and the ENCODE that blocks the command port. -/

namespace Sys2Proof.Machine

/-! ## The restart (R26, R137, R155, R156) -/

/-- What survives a restart is the observer's record alone: the device's own fields are those of a fresh start, with the
anchor at the clock reading. -/
theorem restart_keeps_only_traces (s : State) :
    s.restart.regs = State.reset.regs ∧ s.restart.phase = .idle ∧ s.restart.rst = false ∧ s.restart.cmds = [] ∧
    s.restart.rx = [] ∧ s.restart.loop = .polling ∧ s.restart.anchor = s.restart.clock ∧ s.restart.out = s.out ∧
    s.restart.diag = s.diag :=
  ⟨rfl, rfl, rfl, rfl, rfl, rfl, rfl, rfl, rfl⟩

/-- Settles O18: the step is the restart. -/
theorem resetInputRestartsTheDevice : Obligations.ResetInputRestartsTheDevice :=
  fun s hr => ⟨s.restart, step_of_rst hr, restart_keeps_only_traces s⟩

theorem portOut_reset (s : State) : portOut true s = { cmdReady := false, txFrame := none } := rfl

/-- Settles O59: the outputs do not look at `phase`, and the cycle is the restart. -/
theorem portResetRestartsTheDevice : Obligations.PortResetRestartsTheDevice := by
  intro i s hr
  rw [portCycle_reset s hr, hr]
  exact ⟨portOut_reset s, restart_keeps_only_traces s⟩

/-! ## The reset registers restored by commands (R79, R157) -/

theorem voltagePair_zero : voltagePair 0#32 = (0#32, 0#32) := by decide

theorem powerPair_zero : powerPair 0#32 = (0#8, 0#8) := by decide

theorem currentTriple_zero : currentTriple 0#32 = (0#1, 0#32, 0#32) := by decide

/-- The five quantities cover the ten registers, so nothing of the old registers is left. -/
theorem foldl_afterCommand_zero_updates (t : Telemetry) :
    [.updV 0#32, .updVpv 0#32, .updPpv 0#32, .updI 0#32, .updCs 0#32].foldl Telemetry.afterCommand t =
      Telemetry.zero := by
  simp only [List.foldl_cons, List.foldl_nil, afterCommand_updV, afterCommand_updVpv, afterCommand_updPpv,
    afterCommand_updI, voltagePair_zero, powerPair_zero, currentTriple_zero]
  rfl

/-- Settles O19: a list without ENCODE writes registers only, and these five updates write zero to all ten. -/
theorem fiveZeroUpdatesRestoreTheRegisters : Obligations.FiveZeroUpdatesRestoreTheRegisters := by
  intro s
  rw [runList_of_no_encode (by decide), foldl_afterCommand_zero_updates]
  rfl

/-! ## The ENCODE under way (R24, R48, R89, R161) -/

/-- Settles O20: the step is the answer to the frame under way, which touches neither registers nor input. -/
theorem encodeUnderWayBlocksCommands : Obligations.EncodeUnderWayBlocksCommands := by
  refine fun s hr => ⟨fun hp => ?_, fun hp => ?_⟩
  · exact ⟨s.answerA, _, step_of_sendA hr hp, rfl, rfl, rfl, rfl, s.answerA_out⟩
  · exact ⟨s.answerB, _, step_of_sendB hr hp, rfl, rfl, rfl, rfl, s.answerB_out⟩

end Sys2Proof.Machine
end
